-- ==== Sys2Proof/Word.lean ====
section
/-!
DEFINITION. The bit-vector types of the block: bytes of the stream, the 16-bit fields of a frame,
the 32-bit words of the register view (spec/00_scope.md R10).
-/
namespace Sys2Proof

/-- `u8`: one byte of the stream. -/
abbrev Byte := BitVec 8

/-- `u16`: an assembled field of a frame. -/
abbrev Half := BitVec 16

/-- `u32`: a word of the register view, or a binary32 pattern. -/
abbrev Word := BitVec 32

end Sys2Proof
end

