-- ==== Sys2Proof/Config.lean ====
section
/-!
DEFINITION. What is fixed for the machine: the constants of the document (spec/00_scope.md R7) and
the parameters it leaves open, at the spec's defaults (R8).

DESIGN CHOICE (log entry 1, unsafe for an implementation with other parameters): the four parameters
of R8 stand at their defaults. The block has no other open value: the one free input, `now` (R29), is
an input of every step (log entry 5). The environment's endless sequence of inputs is the opaque constant
`Config.freeSlot`, declared with the type of its slots in Sys2Proof/Syntax.lean (log entry 20).
-/
namespace Sys2Proof.Config

/-- The generation counter's type: `GEN_W = 32` bits (R8). -/
abbrev Generation := BitVec 32

/-- The type of a diagnostic counter: `CNT_W = 32` bits (R8). -/
abbrev Counter := BitVec 32

/-- The type of a timestamp and of the input `now`: `TS_W = 64` bits (R8). -/
abbrev Timestamp := BitVec 64

/-- `NR` (R8): the number of reader ports. -/
abbrev nr : Nat := 2

/-- `HDR0` (R7). -/
def hdr0 : Byte := 0x59#8

/-- `HDR1` (R7). -/
def hdr1 : Byte := 0x59#8

/-- `CSUM_MOD` (R7). -/
def csumMod : Nat := 256

/-- `MIN_STRENGTH` (R7): a frame with a smaller strength is rejected. -/
def minStrength : Nat := 10

/-- `DIST_SAT_A` (R7). -/
def distSatA : Half := 65534#16

/-- `DIST_SAT_B` (R7). -/
def distSatB : Half := 65535#16

/-- `DIST_INTF` (R7). -/
def distIntf : Half := 65532#16

/-- `TEMP_DIV` (R7): the divisor of the raw temperature. -/
def tempDiv : Nat := 8

/-- `TEMP_OFF` (R7): the offset subtracted after the division. -/
def tempOff : Nat := 256

end Sys2Proof.Config
end

