-- ==== Sys2Proof/Syntax.lean ====
section
/-!
DEFINITION. The operations of the block, one constructor for each row of spec/opcode_table.json
(spec/00_scope.md R19), and the events its ports carry (spec/30_encoding.md R86 to R89).
-/
namespace Sys2Proof

/-- The window `win[0..8]` (R22), and the nine bytes of a candidate frame. -/
abbrev Window := Vector Byte 9

/-- The number of a reader port, `0 <= r < NR` (R32). A port that does not exist cannot be written
down (log entry 12). -/
abbrev PortId := Fin Config.nr

/-- What a frame carries after its header (R80, R82): the three little-endian fields and the checksum
byte, valid or not. -/
structure Frame where
  /-- `distance`, bytes `b2` and `b3`. -/
  dist : Half
  /-- `strength`, bytes `b4` and `b5`. -/
  str : Half
  /-- `rawTemp`, bytes `b6` and `b7`. -/
  raw : Half
  /-- The checksum byte `b8`. -/
  csum : Byte
deriving DecidableEq, Repr

/-- The five outcomes of a completed frame (R130). -/
inductive FrameOutcome where
  | accept
  | rejCsum
  | rejWeak
  | rejSat
  | rejIntf
deriving DecidableEq, Repr

/-- The operations (R19), one constructor for each row of spec/opcode_table.json.

`BYTE` and its four cases by `fill` have the same words (log entry 10). The five frame outcomes carry
the whole frame; the event of their step is the frame's ninth byte (log entry 11). -/
inductive Instr where
  /-- `BYTE v` (R118): one stream byte, dispatched on `fill`. -/
  | byte (v : Byte)
  /-- `BYTE.hunt0` (R110): a byte while hunting with nothing held. -/
  | byteHunt0 (v : Byte)
  /-- `BYTE.hunt1` (R111): a byte while hunting with one 0x59 held. -/
  | byteHunt1 (v : Byte)
  /-- `BYTE.collect` (R112): a payload byte. -/
  | byteCollect (v : Byte)
  /-- `BYTE.ninth` (R113): the checksum byte. -/
  | byteNinth (v : Byte)
  /-- `EOS` (R150): end of stream. -/
  | eos
  /-- `FAULT` (R151): transport-level read error. -/
  | fault
  /-- `ACCEPT` (R142): the ninth byte of a frame that is published. -/
  | accept (f : Frame)
  /-- `REJ_CSUM` (R143): the ninth byte of a frame with a checksum mismatch. -/
  | rejCsum (f : Frame)
  /-- `REJ_WEAK` (R144): the ninth byte of a frame whose signal is too weak. -/
  | rejWeak (f : Frame)
  /-- `REJ_SAT` (R145): the ninth byte of a saturated frame. -/
  | rejSat (f : Frame)
  /-- `REJ_INTF` (R146): the ninth byte of a frame with an interference mark. -/
  | rejIntf (f : Frame)
  /-- `CAPTURE r` (R160). -/
  | capture (r : PortId)
  /-- `RDSNAP r, k` (R161), `k` in 0..7. -/
  | rdsnap (r : PortId) (k : BitVec 4)
  /-- `RDSTAT k` issued on port `r` (R162), `k` in 8..15. -/
  | rdstat (r : PortId) (k : BitVec 4)
  /-- `RESET` (R210). -/
  | reset
deriving DecidableEq, Repr

/-- What the ports carry in one step (R86 to R89). -/
inductive Event where
  /-- `in_valid = 1`: the source offers the 10-bit symbol `{err, eos, data[7:0]}` (R86, R87). -/
  | stream (sym : BitVec 10)
  /-- `cmd_valid[r] = 1`: the 5-bit command `{cap, k[3:0]}` on port `r` (R88). -/
  | command (r : PortId) (cmd : BitVec 5)
  /-- `rst = 1` (R89). -/
  | rst
  /-- Nothing is offered: `in_valid = 0`, no command, `rst = 0` (R87, R193). -/
  | idle
deriving DecidableEq, Repr, Inhabited

/-- One step's inputs: the value of the time input (R15: "its value at each step is free") and the
event. -/
structure Slot where
  now : Config.Timestamp
  event : Event
deriving DecidableEq, Repr, Inhabited

/-- An endless sequence of inputs (R15: "a finite or infinite sequence"): the environment's own, of which
nothing is known. DESIGN CHOICE (log entry 20): a free value, so a statement about it holds for every
endless sequence. -/
opaque Config.freeSlot : Nat → Slot

/-- The events that an implementation may accept at one clock edge (R73): reset, a stream symbol, a
command on each port. -/
structure Edge where
  rst : Bool
  sym : Option (BitVec 10)
  cmds : List (PortId × BitVec 5)
deriving DecidableEq, Repr

end Sys2Proof
end

