-- ==== Sys2Proof/Machine/Operands.lean ====
section
/-!
DEFINITION. The operands of a frame and the arithmetic of its evaluation: byte order and fields
(spec/30_encoding.md R82), checksum (spec/41_validate_publish.md R131), the order of the tests (R130)
and the temperature pattern (R137). Nothing here reads State.
-/
namespace Sys2Proof.Machine

/-- `x[7:0]`. -/
def lowByte (x : Half) : Byte := x.extractLsb' 0 8

/-- `x[15:8]`. -/
def highByte (x : Half) : Byte := x.extractLsb' 8 8

/-- A 16-bit field from the byte that arrives first and the one that arrives second (R69, R82):
`lo + hi*256`; nothing is lost in the narrowing (R133). -/
def littleEndian (lo hi : Byte) : Half := BitVec.ofNat 16 (lo.toNat + hi.toNat * 256)

/-- `distance = b2 + b3*256` (R133). -/
def distanceOf (w : Window) : Half := littleEndian w[2] w[3]

/-- `strength = b4 + b5*256` (R134). -/
def strengthOf (w : Window) : Half := littleEndian w[4] w[5]

/-- `rawTemp = b6 + b7*256` (R135). -/
def rawTempOf (w : Window) : Half := littleEndian w[6] w[7]

/-- The unreduced sum of `b0..b7`, 0..2040 (R131). -/
def byteSum (w : Window) : Nat :=
  w[0].toNat + w[1].toNat + w[2].toNat + w[3].toNat + w[4].toNat + w[5].toNat + w[6].toNat + w[7].toNat

/-- `csum = (b0 + … + b7) mod 256` (R131); the header bytes are in the sum. -/
def checksumOf (w : Window) : Byte := BitVec.ofNat 8 (byteSum w % Config.csumMod)

/-- The evaluation of a candidate frame, `b0..b7 = w[0..7]` and `b8 = v`, in the fixed order of R130:
the first test that holds decides. -/
def evaluate (w : Window) (v : Byte) : FrameOutcome :=
  if checksumOf w ≠ v then .rejCsum
  else if (strengthOf w).toNat < Config.minStrength then .rejWeak
  else if distanceOf w = Config.distSatA ∨ distanceOf w = Config.distSatB then .rejSat
  else if distanceOf w = Config.distIntf then .rejIntf
  else .accept

/-- The nine bytes of a frame in order of arrival (R80). -/
def frameWindow (f : Frame) : Window :=
  #v[Config.hdr0, Config.hdr1, lowByte f.dist, highByte f.dist, lowByte f.str, highByte f.str,
     lowByte f.raw, highByte f.raw, f.csum]

/-- The fields of the candidate frame whose first eight bytes are `w[0..7]` and whose ninth is `v`. -/
def frameOf (w : Window) (v : Byte) : Frame :=
  { dist := distanceOf w, str := strengthOf w, raw := rawTempOf w, csum := v }

/-- The outcome that evaluating a frame gives (R92, R130). -/
def frameOutcome (f : Frame) : FrameOutcome := evaluate (frameWindow f) f.csum

/-- A binary32 pattern `{s, E[7:0], frac[22:0]}` (R137). PRESUMED (log entry 13, the spec's G1): `f32`
is IEEE 754 binary32. -/
def packBinary32 (s : Bool) (e frac : Nat) : Word :=
  BitVec.ofBool s ++ BitVec.ofNat 8 e ++ BitVec.ofNat 23 frac

/-- `t8 = rawTemp − 2048` (R137): the temperature in eighths of a degree, the block's only signed value. -/
def tempEighths (raw : Half) : Int := (raw.toNat : Int) - (Config.tempDiv * Config.tempOff : Nat)

/-- The pattern of `m/8` with sign `s`, for `m ≠ 0` (R137): `e` is the position of the highest set bit of
`m`, the exponent is `127 + e − 3`, and the shift by `23 − e` loses no bit. -/
def packEighths (s : Bool) (m : Nat) : Word :=
  packBinary32 s (127 + m.log2 - 3) ((m - 2 ^ m.log2) * 2 ^ (23 - m.log2))

/-- The pattern of `rawTemp/8 − 256` (R137), exact for every `rawTemp`; +0.0 for `rawTemp = 2048`. -/
def tempPattern (raw : Half) : Word :=
  if tempEighths raw = 0 then 0x00000000#32
  else packEighths (decide (tempEighths raw < 0)) (tempEighths raw).natAbs

end Sys2Proof.Machine
end

