-- ==== Sys2Proof/WellFormed.lean ====
section
/-!
DEFINITION. Which instructions a word of the table encodes: the conditions the table puts on a row's
own bits. Conditions on the state (`run`, `fill`, the window) are the machine's, not syntax.
-/
namespace Sys2Proof

/-- The word index of `RDSNAP` has `k[3] = 0` and that of `RDSTAT` has `k[3] = 1` (R88); a frame row
carries a frame whose evaluation gives that row's outcome (R130, R142 to R146). -/
def Instr.wellFormed : Instr → Bool
  | .byte _ => true
  | .byteHunt0 _ => true
  | .byteHunt1 _ => true
  | .byteCollect _ => true
  | .byteNinth _ => true
  | .eos => true
  | .fault => true
  | .accept f => decide (Machine.frameOutcome f = .accept)
  | .rejCsum f => decide (Machine.frameOutcome f = .rejCsum)
  | .rejWeak f => decide (Machine.frameOutcome f = .rejWeak)
  | .rejSat f => decide (Machine.frameOutcome f = .rejSat)
  | .rejIntf f => decide (Machine.frameOutcome f = .rejIntf)
  | .capture _ => true
  | .rdsnap _ k => decide (k.toNat < 8)
  | .rdstat _ k => decide (8 ≤ k.toNat)
  | .reset => true

end Sys2Proof
end

