-- ==== Sys2Proof/Decode.lean ====
section
/-!
DEFINITION. Decoding of the port words (spec/30_encoding.md R81, R86, R88, R89), the decode map of
`BYTE` by `fill` (R91), and the encoder written from the same tables. Every stream symbol, every reader
command and every frame with the header decodes; what is no word of a port is rejected by name.
-/
namespace Sys2Proof

/-- The port a word arrives on. `frame` stands for nine stream bytes read as one 72-bit number (R81). -/
inductive Port where
  | stream
  | frame
  | reader (r : Nat)
  | host
deriving DecidableEq, Repr

/-- A word on a port, as the number its bits give. -/
structure PortWord where
  port : Port
  bits : Nat
deriving DecidableEq, Repr

/-- Why a port word is no operation. -/
inductive DecodeError where
  /-- More than ten bits on the stream port. -/
  | notASymbol
  /-- More than five bits on a reader port. -/
  | notACommand
  /-- A command on a port that does not exist (93_implementation_defined.md, after U17). -/
  | noSuchPort
  /-- More than 72 bits for a frame. -/
  | notAFrame
  /-- Nine bytes that do not open with 0x59 0x59 (R81). -/
  | noHeader
  /-- The host's wire carries no `rst = 1` (R89). -/
  | noReset
deriving DecidableEq, Repr

/-- The stream symbol `{err, eos, data[7:0]}`: `err` over `eos` over data (R86). -/
def decodeSymbol (sym : BitVec 10) : Instr :=
  if sym.getLsbD 9 then .fault
  else if sym.getLsbD 8 then .eos
  else .byte (sym.extractLsb' 0 8)

/-- The reader command `{cap, k[3:0]}` on port `r` (R88). -/
def decodeCommand (r : PortId) (cmd : BitVec 5) : Instr :=
  if cmd.getLsbD 4 then .capture r
  else if cmd.getLsbD 3 then .rdstat r (cmd.extractLsb' 0 4)
  else .rdsnap r (cmd.extractLsb' 0 4)

/-- The row of a frame with the given outcome (R92, R130). -/
def outcomeInstr (f : Frame) : FrameOutcome → Instr
  | .accept => .accept f
  | .rejCsum => .rejCsum f
  | .rejWeak => .rejWeak f
  | .rejSat => .rejSat f
  | .rejIntf => .rejIntf f

/-- The fields of the 72-bit number with `b0` in bits 71..64 and `b8` in bits 7..0 (R81). -/
def frameFields (w : BitVec 72) : Frame :=
  { dist := Machine.littleEndian (w.extractLsb' 48 8) (w.extractLsb' 40 8)
    str := Machine.littleEndian (w.extractLsb' 32 8) (w.extractLsb' 24 8)
    raw := Machine.littleEndian (w.extractLsb' 16 8) (w.extractLsb' 8 8)
    csum := w.extractLsb' 0 8 }

/-- A 72-bit frame: mask and match of the header (R81), then the row its evaluation gives (R130). -/
def decodeFrame (w : BitVec 72) : Except DecodeError Instr :=
  if w.extractLsb' 64 8 = Config.hdr0 ∧ w.extractLsb' 56 8 = Config.hdr1 then
    .ok (outcomeInstr (frameFields w) (Machine.frameOutcome (frameFields w)))
  else .error .noHeader

/-- Decoding of any word on any port. -/
def decode (p : PortWord) : Except DecodeError Instr :=
  match p.port with
  | .stream => if p.bits < 2 ^ 10 then .ok (decodeSymbol (BitVec.ofNat 10 p.bits)) else .error .notASymbol
  | .frame => if p.bits < 2 ^ 72 then decodeFrame (BitVec.ofNat 72 p.bits) else .error .notAFrame
  | .reader r =>
    if h : r < Config.nr then
      if p.bits < 2 ^ 5 then .ok (decodeCommand ⟨r, h⟩ (BitVec.ofNat 5 p.bits)) else .error .notACommand
    else .error .noSuchPort
  | .host => if p.bits = 1 then .ok .reset else .error .noReset

/-- The operation an event asks for; `idle` asks for none (R87). -/
def decodeEvent : Event → Option Instr
  | .stream sym => some (decodeSymbol sym)
  | .command r cmd => some (decodeCommand r cmd)
  | .rst => some .reset
  | .idle => none

/-- The case of `BYTE v` by `fill` (R91, R118): exactly one of R110 to R113. -/
def byteCase (fill : Fin 9) (v : Byte) : Instr :=
  if fill = 0 then .byteHunt0 v
  else if fill = 1 then .byteHunt1 v
  else if fill = 8 then .byteNinth v
  else .byteCollect v

/-- The row of `BYTE v` in full (R91): by `fill`, and for the ninth byte by the evaluation of the
window. -/
def byteRow (fill : Fin 9) (w : Window) (v : Byte) : Instr :=
  if fill = 8 then outcomeInstr (Machine.frameOf w v) (Machine.evaluate w v) else byteCase fill v

/-! ### The encoder -/

/-- The symbol of a stream byte: `err = 0, eos = 0, data = v` (R86). -/
def byteSymbol (v : Byte) : BitVec 10 := 0#2 ++ v

/-- The symbol of `EOS`, its ignored bits zero (R86, R94). -/
def eosSymbol : BitVec 10 := 0x100#10

/-- The symbol of `FAULT`, its ignored bits zero (R86, R94). -/
def faultSymbol : BitVec 10 := 0x200#10

/-- The command of `CAPTURE`, its ignored bits zero (R88, R94). -/
def captureCommand : BitVec 5 := 0x10#5

/-- The command that reads word `k` (R88). -/
def readCommand (k : BitVec 4) : BitVec 5 := 0#1 ++ k

/-- A frame as one 72-bit number, `b0` in bits 71..64 (R81). -/
def frameWord (f : Frame) : BitVec 72 :=
  Config.hdr0 ++ Config.hdr1 ++ Machine.lowByte f.dist ++ Machine.highByte f.dist ++
    Machine.lowByte f.str ++ Machine.highByte f.str ++ Machine.lowByte f.raw ++
    Machine.highByte f.raw ++ f.csum

/-- The word of an operation on its port (R81, R86, R88, R89). The cases of `BYTE` have its word. -/
def encode : Instr → PortWord
  | .byte v => ⟨.stream, (byteSymbol v).toNat⟩
  | .byteHunt0 v => ⟨.stream, (byteSymbol v).toNat⟩
  | .byteHunt1 v => ⟨.stream, (byteSymbol v).toNat⟩
  | .byteCollect v => ⟨.stream, (byteSymbol v).toNat⟩
  | .byteNinth v => ⟨.stream, (byteSymbol v).toNat⟩
  | .eos => ⟨.stream, eosSymbol.toNat⟩
  | .fault => ⟨.stream, faultSymbol.toNat⟩
  | .accept f => ⟨.frame, (frameWord f).toNat⟩
  | .rejCsum f => ⟨.frame, (frameWord f).toNat⟩
  | .rejWeak f => ⟨.frame, (frameWord f).toNat⟩
  | .rejSat f => ⟨.frame, (frameWord f).toNat⟩
  | .rejIntf f => ⟨.frame, (frameWord f).toNat⟩
  | .capture r => ⟨.reader r.val, captureCommand.toNat⟩
  | .rdsnap r k => ⟨.reader r.val, (readCommand k).toNat⟩
  | .rdstat r k => ⟨.reader r.val, (readCommand k).toNat⟩
  | .reset => ⟨.host, 1⟩

/-- The operation that decoding the word of `i` gives: `i` itself, but for the cases of `BYTE`, whose
words are those of `BYTE` (log entry 10). -/
def wordInstr : Instr → Instr
  | .byteHunt0 v => .byte v
  | .byteHunt1 v => .byte v
  | .byteCollect v => .byte v
  | .byteNinth v => .byte v
  | .byte v => .byte v
  | .eos => .eos
  | .fault => .fault
  | .accept f => .accept f
  | .rejCsum f => .rejCsum f
  | .rejWeak f => .rejWeak f
  | .rejSat f => .rejSat f
  | .rejIntf f => .rejIntf f
  | .capture r => .capture r
  | .rdsnap r k => .rdsnap r k
  | .rdstat r k => .rdstat r k
  | .reset => .reset

/-- The event that carries an operation on the ports: a stream symbol, a command or `rst`. The event of
a frame outcome is its ninth byte (R19: "Frame outcomes of a ninth byte"; log entry 11). -/
def eventOf : Instr → Event
  | .byte v => .stream (byteSymbol v)
  | .byteHunt0 v => .stream (byteSymbol v)
  | .byteHunt1 v => .stream (byteSymbol v)
  | .byteCollect v => .stream (byteSymbol v)
  | .byteNinth v => .stream (byteSymbol v)
  | .eos => .stream eosSymbol
  | .fault => .stream faultSymbol
  | .accept f => .stream (byteSymbol f.csum)
  | .rejCsum f => .stream (byteSymbol f.csum)
  | .rejWeak f => .stream (byteSymbol f.csum)
  | .rejSat f => .stream (byteSymbol f.csum)
  | .rejIntf f => .stream (byteSymbol f.csum)
  | .capture r => .command r captureCommand
  | .rdsnap r k => .command r (readCommand k)
  | .rdstat r k => .command r (readCommand k)
  | .reset => .rst

/-! ### The rows of the table -/

/-- A row's `mask`, as spec/opcode_table.json gives it. -/
def rowMask : Instr → Nat
  | .byte _ => 0x300
  | .byteHunt0 _ => 0x300
  | .byteHunt1 _ => 0x300
  | .byteCollect _ => 0x300
  | .byteNinth _ => 0x300
  | .eos => 0x300
  | .fault => 0x200
  | .accept _ => 0xFFFF00000000000000
  | .rejCsum _ => 0xFFFF00000000000000
  | .rejWeak _ => 0xFFFF00000000000000
  | .rejSat _ => 0xFFFF00000000000000
  | .rejIntf _ => 0xFFFF00000000000000
  | .capture _ => 0x10
  | .rdsnap _ _ => 0x18
  | .rdstat _ _ => 0x18
  | .reset => 0x1

/-- A row's `match`, as spec/opcode_table.json gives it. -/
def rowMatch : Instr → Nat
  | .byte _ => 0x000
  | .byteHunt0 _ => 0x000
  | .byteHunt1 _ => 0x000
  | .byteCollect _ => 0x000
  | .byteNinth _ => 0x000
  | .eos => 0x100
  | .fault => 0x200
  | .accept _ => 0x595900000000000000
  | .rejCsum _ => 0x595900000000000000
  | .rejWeak _ => 0x595900000000000000
  | .rejSat _ => 0x595900000000000000
  | .rejIntf _ => 0x595900000000000000
  | .capture _ => 0x10
  | .rdsnap _ _ => 0x00
  | .rdstat _ _ => 0x08
  | .reset => 0x1

/-- A row's `width` in bits, as spec/opcode_table.json gives it. -/
def rowWidth : Instr → Nat
  | .byte _ => 10
  | .byteHunt0 _ => 10
  | .byteHunt1 _ => 10
  | .byteCollect _ => 10
  | .byteNinth _ => 10
  | .eos => 10
  | .fault => 10
  | .accept _ => 72
  | .rejCsum _ => 72
  | .rejWeak _ => 72
  | .rejSat _ => 72
  | .rejIntf _ => 72
  | .capture _ => 5
  | .rdsnap _ _ => 5
  | .rdstat _ _ => 5
  | .reset => 1

/-- The port of a table word of `nbits` bits, its width or its width in whole bytes. DESIGN CHOICE (log
entry 15): a reader command and `rst` both fill one byte; the byte 0x01 is read as `RESET`, any other
as a command on port 0; widths 5 and 1 tell them apart. -/
def tablePort (nbits w : Nat) : Option Port :=
  if nbits = 10 ∨ nbits = 16 then some .stream
  else if nbits = 72 then some .frame
  else if nbits = 5 then some (.reader 0)
  else if nbits = 1 then some .host
  else if nbits = 8 then some (if w = 1 then .host else .reader 0)
  else none

/-- What the decoder reads from a word numbered as spec/opcode_table.json numbers it: for a frame that
is `b0` in bits 71..64 (R81). -/
def decodeTableWord (nbits w : Nat) : Option Instr :=
  match tablePort nbits w with
  | some p => (decode ⟨p, w⟩).toOption
  | none => none

/-! ### Pseudo-operations (R102): they expand to bytes; the block knows nothing of them -/

/-- `FRAMEX d, s, t, c`: the nine bytes with the given last byte. -/
def framexBytes (d s t : Half) (c : Byte) : List Byte := (Machine.frameWindow ⟨d, s, t, c⟩).toList

/-- `FRAME d, s, t`: the nine bytes of a checksum-valid frame. -/
def frameBytes (d s t : Half) : List Byte :=
  framexBytes d s t (Machine.checksumOf (Machine.frameWindow ⟨d, s, t, 0#8⟩))

/-- `NOISE n, xx`: `n` copies of the byte `xx`. -/
def noiseBytes (n : Nat) (xx : Byte) : List Byte := List.replicate n xx

end Sys2Proof
end

