-- ==== Sys2Proof/Machine/State.lean ====
section
/-!
DEFINITION. The state of the block (spec/10_state.md R21, "Nothing else is state"), the ghosts the spec
names (R24; spec/20_memory.md R57), and the model's own record of inputs and outputs (R34 says they are
not state of the block). Reset values: R37.
-/
namespace Sys2Proof.Machine

/-- The run state of the decode loop (R25). Code 3 has no value (93_implementation_defined.md U12). -/
inductive Run where
  /-- The loop is alive and consumes symbols. -/
  | run
  /-- The loop ended at end of stream, non-fatal. -/
  | closed
  /-- The loop ended at a transport-level read error. -/
  | fatal
deriving DecidableEq, Repr

/-- The store with its generation (R26 to R30), and equally a snapshot register (R32): the six values
that publish writes together and capture copies together. -/
structure Record where
  /-- `st_valid`: false is the "unset" sentinel (R26). -/
  valid : Bool
  /-- `distanceCm` (R27). -/
  dist : Half
  /-- `signalStrength` (R27). -/
  str : Half
  /-- `temperatureC` as a binary32 pattern (R28). -/
  temp : Word
  /-- `capturedAt` (R29). -/
  time : Config.Timestamp
  /-- The generation counter (R30). -/
  gen : Config.Generation
deriving DecidableEq, Repr

/-- The unset record: all zero (R26, R37). -/
def Record.unset : Record := { valid := false, dist := 0#16, str := 0#16, temp := 0x00000000#32, time := 0#64, gen := 0#32 }

/-- The outcome label of a step of the stream agent (R97). It is part of the trace of a run, not of the
block's state (R14). -/
inductive Label where
  | hold
  /-- `SKIP(n)`: `n` bytes discarded (R103). -/
  | skip (n : Nat)
  | accept
  | rejCsum
  | rejWeak
  | rejSat
  | rejIntf
  | closed
  | fatal
deriving DecidableEq, Repr

/-- What a step shows outside: its outcome label (R97), or the result of a read command on a port
(`rd_data[r]`, R88). -/
inductive Shown where
  | label (l : Label)
  | read (r : PortId) (k : BitVec 4) (w : Word)
deriving DecidableEq, Repr

/-- No step of the block faults: "Nothing in the block is modelled as a fault" (93_implementation_defined.md,
after U17); the two terminal conditions are ordinary state changes (R187). The type has no constructor. -/
inductive Fault where
deriving DecidableEq, Repr

/-- Why the model gives an operation no meaning. -/
inductive Refusal where
  /-- An operation without a meaning in this model: raised by an arm of exec that has none (none is left).
  Safe: the model says nothing where the hardware goes on. -/
  | notModelled (mnemonic : String)
deriving DecidableEq, Repr

/-- The state. `win` to `snap` are the spec's (R21); `pos`, `frames` and `published` are ghosts (R24, R57);
`inputs`, `beyond`, `now` and `out` are the model's record of inputs and outputs (log entries 4, 20, 5, 7). -/
structure State where
  /-- `win[0..8]`, the candidate frame (R22). -/
  win : Window
  /-- How many bytes of the candidate frame are held, 0..8 (R23). -/
  fill : Fin 9
  /-- The run state of the decode loop (R25). -/
  run : Run
  /-- Bytes discarded while hunting (R31). -/
  nSkip : Config.Counter
  /-- Frames discarded for a checksum mismatch (R31). -/
  nCsum : Config.Counter
  /-- Frames rejected as "signal too weak" (R31). -/
  nWeak : Config.Counter
  /-- Frames rejected as "saturated" (R31). -/
  nSat : Config.Counter
  /-- Frames rejected as "interference/bad data" (R31). -/
  nIntf : Config.Counter
  /-- The store, `gen` with it (R26 to R30). -/
  store : Record
  /-- The snapshot registers (R32). -/
  snap : Vector Record Config.nr
  /-- Ghost: the number of bytes consumed since reset (R24 a). -/
  pos : Nat
  /-- Ghost: the number of ninth-byte evaluations since reset (R24 b). -/
  frames : Nat
  /-- Ghost: the records published since reset, newest first (R57). -/
  published : List Record
  /-- The inputs of the coming steps, the next one first (R15, R56). -/
  inputs : List Slot
  /-- What comes after `inputs` (R15): nothing, or the environment's endless sequence `Config.freeSlot` from
  the given place on. -/
  beyond : Option Nat
  /-- The value of the time input in the present step (R29, R141). -/
  now : Config.Timestamp
  /-- What the steps have shown outside, newest first (R88, R97). -/
  out : List Shown
deriving DecidableEq, Repr

/-- The machine right after `RESET` (R37), nothing offered yet. DESIGN CHOICE (log entries 4, 5, 7,
20): the model's own fields start with no input, `now = 0` and nothing shown. -/
def State.reset : State where
  win := Vector.replicate 9 0#8
  fill := 0
  run := .run
  nSkip := 0#32
  nCsum := 0#32
  nWeak := 0#32
  nSat := 0#32
  nIntf := 0#32
  store := Record.unset
  snap := Vector.replicate Config.nr Record.unset
  pos := 0
  frames := 0
  published := []
  inputs := []
  beyond := none
  now := 0#64
  out := []

end Sys2Proof.Machine
end

