-- ==== Sys2Proof/Machine/Flags.lean ====
section
/-!
DEFINITION. The flags, levels and codes: outputs derived from `run` (spec/10_state.md R33), the `STATUS`
word (spec/20_memory.md R62), codes of run states and labels (spec/30_encoding.md R95 to R97), and the
conditions of spec/60_exceptions.md R180.
-/
namespace Sys2Proof.Machine

/-- `in_ready = (run = RUN)` (R33). -/
def State.inReady (s : State) : Bool := decide (s.run = .run)

/-- `closed = (run = CLOSED)` (R33, R184). -/
def State.closedSignal (s : State) : Bool := decide (s.run = .closed)

/-- `fatal = (run = FATAL)` (R33, R184). -/
def State.fatalSignal (s : State) : Bool := decide (s.run = .fatal)

/-- Run state codes (R95). -/
def runCode : Run → BitVec 2
  | .run => 0#2
  | .closed => 1#2
  | .fatal => 2#2

/-- The `STATUS` word (R62): bits [1:0] the run code, bit 2 `st_valid`, bit 3 zero, bits [7:4] `fill`,
the rest zero. -/
def State.statusWord (s : State) : Word :=
  0#24 ++ BitVec.ofNat 4 s.fill.val ++ 0#1 ++ BitVec.ofBool s.store.valid ++ runCode s.run

/-- Outcome label codes (R97). -/
def labelCode : Label → Nat
  | .hold => 0
  | .skip _ => 1
  | .accept => 2
  | .rejCsum => 3
  | .rejWeak => 4
  | .rejSat => 5
  | .rejIntf => 6
  | .closed => 7
  | .fatal => 8

/-- The document's result states that occur in this block (R96); "unavailable" does not. -/
inductive ResultState where
  | valid
  | rejected
  | fatal
deriving DecidableEq, Repr

/-- The result state of a label (R96): none for a byte kept, and none for a non-fatal close. -/
def labelResult : Label → Option ResultState
  | .hold => none
  | .skip _ => some .rejected
  | .accept => some .valid
  | .rejCsum => some .rejected
  | .rejWeak => some .rejected
  | .rejSat => some .rejected
  | .rejIntf => some .rejected
  | .closed => none
  | .fatal => some .fatal

/-- The kind of a condition (R180). -/
inductive ConditionKind where
  | recoverable
  | terminalNonFatal
  | terminalFatal
deriving DecidableEq, Repr

/-- The condition a step met, by its label (R180): none for `HOLD` and `ACCEPT`. -/
def labelCondition : Label → Option ConditionKind
  | .hold => none
  | .skip _ => some .recoverable
  | .accept => none
  | .rejCsum => some .recoverable
  | .rejWeak => some .recoverable
  | .rejSat => some .recoverable
  | .rejIntf => some .recoverable
  | .closed => some .terminalNonFatal
  | .fatal => some .terminalFatal

end Sys2Proof.Machine
end

