-- ==== Sys2Proof/Machine/Ops.lean ====
section
/-!
DEFINITION. The named operations over the state: emitting a label (spec/00_scope.md R14), the store
primitives (R13; spec/41_validate_publish.md R140), the framer's writes (spec/40_framer.md R110 to R113),
the frame outcomes (R142 to R146), terminating the decode loop (spec/42_termination.md, the block's
"trap entry", spec/60_exceptions.md R187), the reset (spec/70_reset_and_hazards.md R210, the only way back,
R188), and consuming the next slot of the inputs.

Each operation reads the state before the step and writes together (R20).
-/
namespace Sys2Proof.Machine

/-- `emit l` (R14): the step's outcome label. -/
def State.emit (s : State) (l : Label) : State := { s with out := .label l :: s.out }

/-- The result of a read command on port `r` (R88): an output, no state of the block is written. -/
def State.showRead (s : State) (r : PortId) (k : BitVec 4) (w : Word) : State :=
  { s with out := .read r k w :: s.out }

/-! ### The store -/

/-- `StoreRead()` (R52): the six values as they stand before the step. -/
def State.storeRead (s : State) : Record := s.store

/-- `StoreWrite(d, st, p, t)` (R140): record, `st_valid` and `gen + 1` modulo 2^GEN_W together. The ghost
`published` takes the new record. -/
def State.storeWrite (s : State) (d st : Half) (p : Word) (t : Config.Timestamp) : State :=
  let rec' : Record := { valid := true, dist := d, str := st, temp := p, time := t, gen := s.store.gen + 1#32 }
  { s with store := rec', published := rec' :: s.published }

/-! ### The frame outcomes, after the ninth byte's own writes -/

/-- `ACCEPT` (R142): publish with the present `now` (R141). -/
def State.publishFrame (s : State) (f : Frame) : State :=
  (s.storeWrite f.dist f.str (tempPattern f.raw) s.now).emit .accept

/-- `REJ_CSUM` (R143). -/
def State.rejectCsum (s : State) : State := { s with nCsum := s.nCsum + 1#32 }.emit .rejCsum

/-- `REJ_WEAK` (R144). -/
def State.rejectWeak (s : State) : State := { s with nWeak := s.nWeak + 1#32 }.emit .rejWeak

/-- `REJ_SAT` (R145). -/
def State.rejectSat (s : State) : State := { s with nSat := s.nSat + 1#32 }.emit .rejSat

/-- `REJ_INTF` (R146). -/
def State.rejectIntf (s : State) : State := { s with nIntf := s.nIntf + 1#32 }.emit .rejIntf

/-- What each outcome writes (R130, R142 to R146). -/
def State.conclude (s : State) (f : Frame) : FrameOutcome → State
  | .accept => s.publishFrame f
  | .rejCsum => s.rejectCsum
  | .rejWeak => s.rejectWeak
  | .rejSat => s.rejectSat
  | .rejIntf => s.rejectIntf

/-! ### The framer -/

/-- `BYTE v` with `fill = 0` (R110): a possible first header byte is held, anything else is noise. -/
def State.hunt0 (s : State) (v : Byte) : State :=
  if v = Config.hdr0 then { s with win := s.win.set 0 v, fill := 1, pos := s.pos + 1 }.emit .hold
  else { s with nSkip := s.nSkip + 1#32, pos := s.pos + 1 }.emit (.skip 1)

/-- `BYTE v` with `fill = 1` (R111): the header is found, or the held 0x59 and `v` are both dropped. -/
def State.hunt1 (s : State) (v : Byte) : State :=
  if v = Config.hdr1 then { s with win := s.win.set 1 v, fill := 2, pos := s.pos + 1 }.emit .hold
  else { s with fill := 0, nSkip := s.nSkip + 2#32, pos := s.pos + 1 }.emit (.skip 2)

/-- `BYTE v` with `2 <= fill <= 7` (R112): stored whatever its value. -/
def State.collect (s : State) (v : Byte) : State :=
  { s with win := s.win.set s.fill v, fill := s.fill + 1, pos := s.pos + 1 }.emit .hold

/-- The ninth byte's own writes (R113): `win[8]`, and `fill` back to 0 whatever the outcome (R114). -/
def State.takeNinth (s : State) (v : Byte) : State :=
  { s with win := s.win.set 8 v, fill := 0, pos := s.pos + 1, frames := s.frames + 1 }

/-- `BYTE v` with `fill = 8` (R113): the frame `win[0..7]`, `v` is evaluated in the same step (R130). -/
def State.ninth (s : State) (v : Byte) : State :=
  (s.takeNinth v).conclude (frameOf s.win v) (evaluate s.win v)

/-- `BYTE v` (R118): while `run = RUN` exactly one of R110 to R113, by `fill`; otherwise the byte is not
consumed and no step happens (R152). -/
def State.consumeByte (s : State) (v : Byte) : State :=
  if s.run ≠ .run then s
  else if s.fill = 0 then s.hunt0 v
  else if s.fill = 1 then s.hunt1 v
  else if s.fill = 8 then s.ninth v
  else s.collect v

/-- The window holds the first eight bytes of `f` and waits for its ninth, in `RUN` (the condition of the
frame rows on the state, R113 and R130). -/
def State.awaitsNinthOf (s : State) (f : Frame) : Bool :=
  decide (s.run = .run ∧ s.fill = 8 ∧ s.win[0] = Config.hdr0 ∧ s.win[1] = Config.hdr1 ∧
    frameOf s.win f.csum = f)

/-! ### Terminal conditions and reset -/

/-- The two terminal conditions (R182). -/
inductive Terminal where
  | streamClosed
  | transportFault
deriving DecidableEq, Repr

/-- `raise c` (R150, R151, R187): only `run` is written; nothing is saved and control goes nowhere. Once
the loop has ended the symbol is not consumed and no step happens (R152). -/
def State.terminate (s : State) (c : Terminal) : State :=
  if s.run ≠ .run then s
  else
    match c with
    | .streamClosed => { s with run := .closed }.emit .closed
    | .transportFault => { s with run := .fatal }.emit .fatal

/-- `RESET` (R210): every element of the block at its reset value, the ghosts "since reset" with it. The
environment's own fields go on: inputs to come, `now`, and what was shown (log entry 8). -/
def State.resetBlock (s : State) : State :=
  { State.reset with inputs := s.inputs, beyond := s.beyond, now := s.now, out := s.out }

/-! ### Capture -/

/-- `CAPTURE r` (R54, R160): all six values into `snap[r]` in one step. -/
def State.captureInto (s : State) (r : PortId) : State := { s with snap := s.snap.set r s.storeRead }

/-! ### The inputs -/

/-- The next slot of the inputs and the state in which its event is dealt with: the head of the listing, or
once the listing is used up the next one of the endless sequence, if there is one (R15). Its `now` is on the
time input. `none` where nothing is offered any more: the block waits (R87, R193). -/
def State.nextSlot (s : State) : Option (Slot × State) :=
  match s.inputs, s.beyond with
  | slot :: rest, _ => some (slot, { s with inputs := rest, now := slot.now })
  | [], some n =>
    some (Config.freeSlot n, { s with beyond := some (n + 1), now := (Config.freeSlot n).now })
  | [], none => none

/-- The operation the next slot asks for (none for an idle one), and the state it is executed in. -/
def State.fetch (s : State) : Option (Option Instr × State) :=
  s.nextSlot.map fun p => (decodeEvent p.1.event, p.2)

/-- The first eight bytes of a 72-bit frame word, `b0` in bits 71..64 (R81), in the window; `win[8]` is
kept. -/
def State.loadWindow (s : State) (w : BitVec 72) : State :=
  { s with win := #v[w.extractLsb' 64 8, w.extractLsb' 56 8, w.extractLsb' 48 8, w.extractLsb' 40 8,
      w.extractLsb' 32 8, w.extractLsb' 24 8, w.extractLsb' 16 8, w.extractLsb' 8 8, s.win[8]] }

/-- `s` with the event offered next, `now` as it is. -/
def State.offer (s : State) (ev : Event) : State := { s with inputs := ⟨s.now, ev⟩ :: s.inputs }

/-- `s` with the operation of a table word as the next event, so that the next step decodes and runs it
(log entry 15). A symbol, a command or `rst` is put at the head of the inputs. A frame outcome runs at
the ninth byte of its frame: the window takes the first eight bytes, `fill` is 8, the decode loop runs,
and the ninth byte is offered. A word that does not decode changes nothing. -/
def State.placeWord (s : State) (nbits w : Nat) : State :=
  match tablePort nbits w, decodeTableWord nbits w with
  | some .frame, some i => ({ s.loadWindow (BitVec.ofNat 72 w) with fill := 8, run := .run }).offer (eventOf i)
  | some .stream, some _ => s.offer (.stream (BitVec.ofNat 10 w))
  | some (.reader r), some _ =>
    if h : r < Config.nr then s.offer (.command ⟨r, h⟩ (BitVec.ofNat 5 w)) else s
  | some .host, some _ => s.offer .rst
  | _, _ => s

/-- The events of one clock edge as steps, in the order R73 fixes: `RESET` wins and nothing else is
accepted; otherwise the reader commands come first, so that they see the state from before the stream
step (R186 (3)). -/
def edgeEvents (e : Edge) : List Event :=
  if e.rst then [.rst]
  else e.cmds.map (fun c => .command c.1 c.2) ++ (e.sym.map Event.stream).toList

/-- The state with the slots of a clock edge, at the time `t`, to be dealt with before what is still to
come. -/
def State.offerEdge (s : State) (t : Config.Timestamp) (e : Edge) : State :=
  { s with inputs := (edgeEvents e).map (fun ev => ⟨t, ev⟩) ++ s.inputs }

/-- The bytes consumed one after the other (R100: a byte listing is a sequence of `BYTE` steps). -/
def State.consumeBytes (s : State) : List Byte → State
  | [] => s
  | v :: vs => (s.consumeByte v).consumeBytes vs

end Sys2Proof.Machine
end

