-- ==== Sys2Proof/Machine/View.lean ====
section
/-!
DEFINITION. What can be read of the state: the register view of sixteen words per port
(spec/20_memory.md R60 to R63), the snapshot vector (spec/30_encoding.md R90), the telemetry record a
reader gets (spec/43_reader.md R164), the trace of a run (R103), and the running checksum of R24 (c).
-/
namespace Sys2Proof.Machine

/-- Words 0..7 of a snapshot register (R63); words 6 and 7 are reserved and read 0. -/
def snapWord (x : Record) (k : BitVec 4) : Word :=
  match k.toNat with
  | 0 => x.str ++ x.dist
  | 1 => x.temp
  | 2 => (x.time.setWidth 64).extractLsb' 0 32
  | 3 => (x.time.setWidth 64).extractLsb' 32 32
  | 4 => x.gen.setWidth 32
  | 5 => 0#31 ++ BitVec.ofBool x.valid
  | _ => 0#32

/-- Words 8..15, live and the same on every port (R63); word 15 is reserved and reads 0. -/
def State.liveWord (s : State) (k : BitVec 4) : Word :=
  match k.toNat with
  | 8 => s.statusWord
  | 9 => s.store.gen.setWidth 32
  | 10 => s.nSkip.setWidth 32
  | 11 => s.nCsum.setWidth 32
  | 12 => s.nWeak.setWidth 32
  | 13 => s.nSat.setWidth 32
  | 14 => s.nIntf.setWidth 32
  | _ => 0#32

/-- `RegRead(k)` on port `r` (R13, R60, R63). -/
def State.regRead (s : State) (r : PortId) (k : BitVec 4) : Word :=
  if k.toNat < 8 then snapWord s.snap[r] k else s.liveWord k

/-- The 161-bit vector of reader `r`'s parallel outputs (R33, R90). -/
def State.snapVec (s : State) (r : PortId) : BitVec 161 :=
  BitVec.ofBool s.snap[r].valid ++ s.snap[r].gen ++ s.snap[r].time ++ s.snap[r].temp ++
    s.snap[r].str ++ s.snap[r].dist

/-- The document's record (R16, R164), with the generation it belongs to. -/
structure Telemetry where
  distanceCm : Half
  signalStrength : Half
  temperatureC : Word
  capturedAt : Config.Timestamp
  generation : Config.Generation
deriving DecidableEq, Repr

/-- What `read()` gives once reader `r` has captured (R164): nothing while the snapshot is unset. -/
def State.readResult (s : State) (r : PortId) : Option Telemetry :=
  if s.snap[r].valid then
    some { distanceCm := s.snap[r].dist, signalStrength := s.snap[r].str, temperatureC := s.snap[r].temp,
           capturedAt := s.snap[r].time, generation := s.snap[r].gen }
  else none

/-- The label of an entry of `out`, none for a read result. -/
def shownLabel : Shown → Option Label
  | .label l => some l
  | .read _ _ _ => none

/-- The trace of the run, in order (R103). -/
def State.trace (s : State) : List Label := (s.out.filterMap shownLabel).reverse

/-- The running checksum of the bytes held, `(win[0] + … + win[min(fill,8)-1]) mod 256` (R24 c). -/
def State.acc (s : State) : Byte :=
  BitVec.ofNat 8 (((s.win.toList.take s.fill.val).map BitVec.toNat).sum % Config.csumMod)

end Sys2Proof.Machine
end

