-- ==== Sys2Proof/Machine/Framer.lean ====
section
/-!
DEFINITION. The meanings of `BYTE` and of its four cases by `fill` (spec/40_framer.md R110 to R113, R118).

A case of `BYTE` has the word of `BYTE` (log entry 10): where the case's condition holds it has the
case's effect, and in any other state the symbol does what R118 says it does there.
-/
namespace Sys2Proof.Machine

/-- `BYTE v` (R118). -/
def execByte (v : Byte) (s : State) : Host.Outcome State Fault Refusal := .next (s.consumeByte v)

/-- `BYTE.hunt0` (R110). -/
def execByteHunt0 (v : Byte) (s : State) : Host.Outcome State Fault Refusal :=
  if s.run = .run ∧ s.fill = 0 then .next (s.hunt0 v) else .next (s.consumeByte v)

/-- `BYTE.hunt1` (R111). -/
def execByteHunt1 (v : Byte) (s : State) : Host.Outcome State Fault Refusal :=
  if s.run = .run ∧ s.fill = 1 then .next (s.hunt1 v) else .next (s.consumeByte v)

/-- `BYTE.collect` (R112). -/
def execByteCollect (v : Byte) (s : State) : Host.Outcome State Fault Refusal :=
  if s.run = .run ∧ 2 ≤ s.fill.val ∧ s.fill.val ≤ 7 then .next (s.collect v)
  else .next (s.consumeByte v)

/-- `BYTE.ninth` (R113). -/
def execByteNinth (v : Byte) (s : State) : Host.Outcome State Fault Refusal :=
  if s.run = .run ∧ s.fill = 8 then .next (s.ninth v) else .next (s.consumeByte v)

end Sys2Proof.Machine
end

