-- ==== Sys2Proof/Machine/Reader.lean ====
section
/-!
DEFINITION. The meanings of the reader operations (spec/43_reader.md R160 to R162), in every run state.
-/
namespace Sys2Proof.Machine

/-- `CAPTURE r` (R160). -/
def execCapture (r : PortId) (s : State) : Host.Outcome State Fault Refusal := .next (s.captureInto r)

/-- `RDSNAP r, k` (R161): `rd_data[r] = RegRead(k)`; no state is written. -/
def execRdsnap (r : PortId) (k : BitVec 4) (s : State) : Host.Outcome State Fault Refusal :=
  .next (s.showRead r k (s.regRead r k))

/-- `RDSTAT k` on port `r` (R162): `rd_data[r] = RegRead(k)`; no state is written. -/
def execRdstat (r : PortId) (k : BitVec 4) (s : State) : Host.Outcome State Fault Refusal :=
  .next (s.showRead r k (s.regRead r k))

end Sys2Proof.Machine
end

