-- ==== Sys2Proof/Machine/Restart.lean ====
section
/-!
DEFINITION. The meaning of `RESET` (spec/70_reset_and_hazards.md R210), accepted in every state and the
only way out of `CLOSED` and `FATAL` (spec/60_exceptions.md R188).
-/
namespace Sys2Proof.Machine

/-- `RESET` (R210). -/
def execReset (s : State) : Host.Outcome State Fault Refusal := .next s.resetBlock

end Sys2Proof.Machine
end

