-- ==== Sys2Proof/Machine/Termination.lean ====
section
/-!
DEFINITION. The meanings of the two symbols that end the decode loop (spec/42_termination.md R150, R151).
-/
namespace Sys2Proof.Machine

/-- `EOS` (R150): `run <- CLOSED`; a partial frame is abandoned uncounted. -/
def execEos (s : State) : Host.Outcome State Fault Refusal := .next (s.terminate .streamClosed)

/-- `FAULT` (R151): `run <- FATAL`. -/
def execFault (s : State) : Host.Outcome State Fault Refusal := .next (s.terminate .transportFault)

end Sys2Proof.Machine
end

