-- ==== Sys2Proof/Machine/Validator.lean ====
section
/-!
DEFINITION. The meanings of the five frame outcomes (spec/41_validate_publish.md R142 to R146).

The event of an outcome's step is the frame's ninth byte (log entry 11): where the window holds the
frame's first eight bytes and the evaluation gives the row's outcome, the row has its effect; in any other
state the byte does what R118 says it does there.
-/
namespace Sys2Proof.Machine

/-- `ACCEPT` (R142): published with `now`; no counter moves. -/
def execAccept (f : Frame) (s : State) : Host.Outcome State Fault Refusal :=
  if s.awaitsNinthOf f = true ∧ frameOutcome f = .accept then .next ((s.takeNinth f.csum).publishFrame f)
  else .next (s.consumeByte f.csum)

/-- `REJ_CSUM` (R143). -/
def execRejCsum (f : Frame) (s : State) : Host.Outcome State Fault Refusal :=
  if s.awaitsNinthOf f = true ∧ frameOutcome f = .rejCsum then .next (s.takeNinth f.csum).rejectCsum
  else .next (s.consumeByte f.csum)

/-- `REJ_WEAK` (R144). -/
def execRejWeak (f : Frame) (s : State) : Host.Outcome State Fault Refusal :=
  if s.awaitsNinthOf f = true ∧ frameOutcome f = .rejWeak then .next (s.takeNinth f.csum).rejectWeak
  else .next (s.consumeByte f.csum)

/-- `REJ_SAT` (R145). -/
def execRejSat (f : Frame) (s : State) : Host.Outcome State Fault Refusal :=
  if s.awaitsNinthOf f = true ∧ frameOutcome f = .rejSat then .next (s.takeNinth f.csum).rejectSat
  else .next (s.consumeByte f.csum)

/-- `REJ_INTF` (R146). -/
def execRejIntf (f : Frame) (s : State) : Host.Outcome State Fault Refusal :=
  if s.awaitsNinthOf f = true ∧ frameOutcome f = .rejIntf then .next (s.takeNinth f.csum).rejectIntf
  else .next (s.consumeByte f.csum)

end Sys2Proof.Machine
end

