-- ==== Sys2Proof/Machine/Dispatch.lean ====
section
/-!
DEFINITION. exec: one arm for each operation of spec/opcode_table.json.
-/
namespace Sys2Proof.Machine

def exec (i : Instr) (s : State) : Host.Outcome State Fault Refusal :=
  match i with
  | .byte v => Sys2Proof.Machine.execByte v s
  | .byteHunt0 v => Sys2Proof.Machine.execByteHunt0 v s
  | .byteHunt1 v => Sys2Proof.Machine.execByteHunt1 v s
  | .byteCollect v => Sys2Proof.Machine.execByteCollect v s
  | .byteNinth v => Sys2Proof.Machine.execByteNinth v s
  | .eos => Sys2Proof.Machine.execEos s
  | .fault => Sys2Proof.Machine.execFault s
  | .accept f => Sys2Proof.Machine.execAccept f s
  | .rejCsum f => Sys2Proof.Machine.execRejCsum f s
  | .rejWeak f => Sys2Proof.Machine.execRejWeak f s
  | .rejSat f => Sys2Proof.Machine.execRejSat f s
  | .rejIntf f => Sys2Proof.Machine.execRejIntf f s
  | .capture r => Sys2Proof.Machine.execCapture r s
  | .rdsnap r k => Sys2Proof.Machine.execRdsnap r k s
  | .rdstat r k => Sys2Proof.Machine.execRdstat r k s
  | .reset => Sys2Proof.Machine.execReset s

end Sys2Proof.Machine
end

