-- ==== Sys2Proof/Machine/Step.lean ====
section
/-!
DEFINITION. One step of the machine: the next event of the total order (spec/00_scope.md R9,
spec/20_memory.md R56), decoded and executed.
-/
namespace Sys2Proof.Machine

/-- One step: the next slot's event. Where nothing is offered the block waits with its state unchanged
(R87, R193). -/
def step (s : State) : Host.Outcome State Fault Refusal :=
  match s.fetch with
  | none => .next s
  | some (none, s1) => .next s1
  | some (some i, s1) => exec i s1

/-- `s` with the operation of a table word offered next (see `placeWord`). -/
def State.withFetchWord (s : State) (nbits w : Nat) : State := s.placeWord nbits w

end Sys2Proof.Machine
end

