-- ==== Sys2Proof/Safety.lean ====
section
/-!
DEFINITION. What holds of a state that a run can reach (spec/10_state.md R35 I1 to I7), as one predicate
that every step keeps. I1 is the type of `fill`; I8 is about steps and is stated as a rule of its own.
-/
namespace Sys2Proof.Machine

/-- I3, I4 and I5 of R35 (R26 to R28), for the store and equally for a snapshot: an unset record is all
zero; a valid one passed the filter and carries the pattern of some raw temperature. -/
def Record.Ok (x : Record) : Prop :=
  (x.valid = false → x = Record.unset) ∧
  (x.valid = true → 10 ≤ x.str.toNat ∧ x.dist ≠ 65532#16 ∧ x.dist ≠ 65534#16 ∧ x.dist ≠ 65535#16 ∧
    ∃ raw : Half, x.temp = tempPattern raw)

/-- The publish steps since reset, newest first: the i-th left `gen = i mod 2^GEN_W` and a valid record
(R30, R57). -/
def Numbered : List Record → Prop
  | [] => True
  | x :: rest => x.valid = true ∧ x.Ok ∧ x.gen = BitVec.ofNat 32 (rest.length + 1) ∧ Numbered rest

/-- The number of completed frames as the block counts it, modulo 2^32 (R35 I7 and R223, at the default
widths). -/
def State.framesCounted (s : State) : Word :=
  s.store.gen + s.nCsum + s.nWeak + s.nSat + s.nIntf

/-- The same count as a number, wrapped counters as they stand. -/
def State.framesCountedNat (s : State) : Nat :=
  s.store.gen.toNat + s.nCsum.toNat + s.nWeak.toNat + s.nSat.toNat + s.nIntf.toNat

/-- The invariants of R35. -/
structure State.Inv (s : State) : Prop where
  /-- I2, first byte. -/
  header0 : 1 ≤ s.fill.val → s.win[0] = 0x59#8
  /-- I2, second byte. -/
  header1 : 2 ≤ s.fill.val → s.win[1] = 0x59#8
  /-- R57: the publishes are numbered, and each wrote a record as I4 and I5 say. -/
  history : Numbered s.published
  /-- R57: the store holds the last record published, or is unset (I3). -/
  storeIsLast : s.store = s.published.head?.getD Record.unset
  /-- I6: a snapshot is unset or a record as it stood after some publish. -/
  snapsPublished : ∀ r : PortId, s.snap[r] = Record.unset ∨ s.snap[r] ∈ s.published
  /-- I7, modulo 2^32 (R223). -/
  bytesCounted : BitVec.ofNat 32 s.pos = s.nSkip + 9#32 * s.framesCounted + BitVec.ofNat 32 s.fill.val
  /-- I7, before a wrap is looked at: the counters never run ahead of the bytes. -/
  bytesBound : s.nSkip.toNat + 9 * s.framesCountedNat + s.fill.val ≤ s.pos
  /-- R24 (b): every completed frame is counted once, modulo 2^32. -/
  framesCounted : BitVec.ofNat 32 s.frames = s.framesCounted

end Sys2Proof.Machine
end

