-- ==== Sys2Proof/Certificates/Slice0/Obligations.lean ====
section
/-!
DEFINITION. The statements for the provers, each about every state or every word it names, with the rule
of spec/ it formalises. A full record update on the right of an equation is also the frame: what it does
not name is unchanged. The lists `out`, `published` and `inputs` are the model's form of the labels (R14),
the publishes (R57) and the total order of events (R56): log entries 7, 9 and 4.
-/
namespace Sys2Proof.Claims

open Sys2Proof Sys2Proof.Machine

/-- The unset record, written out (R37). -/
def zeroRecord : Record := ⟨false, 0#16, 0#16, 0#32, 0#64, 0#32⟩

/-- The checksum of a frame from its fields as numbers (R83, R102). -/
def checksumNat (d s t : Nat) : Nat :=
  (0xB2 + d % 256 + d / 256 + s % 256 + s / 256 + t % 256 + t / 256) % 256

/-- The sum of the first eight bytes of a window. -/
def sumNat (w : Window) : Nat :=
  w[0].toNat + w[1].toNat + w[2].toNat + w[3].toNat + w[4].toNat + w[5].toNat + w[6].toNat + w[7].toNat

/-- The window holds `b0..b7` of the frame `f`, byte by byte as R80 lays them out, in `RUN`, and waits
for the ninth byte. -/
def Pending (s : State) (f : Frame) : Prop :=
  s.run = .run ∧ s.fill = 8 ∧ s.win[0] = 0x59#8 ∧ s.win[1] = 0x59#8 ∧
  s.win[2].toNat = f.dist.toNat % 256 ∧ s.win[3].toNat = f.dist.toNat / 256 ∧
  s.win[4].toNat = f.str.toNat % 256 ∧ s.win[5].toNat = f.str.toNat / 256 ∧
  s.win[6].toNat = f.raw.toNat % 256 ∧ s.win[7].toNat = f.raw.toNat / 256

/-- The frame's last byte is its checksum (R83). -/
def ChecksumValid (f : Frame) : Prop :=
  f.csum.toNat = checksumNat f.dist.toNat f.str.toNat f.raw.toNat

/-- The record that publishing `f` at the time `t` leaves after the generation `g` (R140). -/
def publishedRecord (f : Frame) (t : BitVec 64) (g : BitVec 32) : Record :=
  ⟨true, f.dist, f.str, tempPattern f.raw, t, g + 1#32⟩

/-- The state once the ninth byte `c` is taken, before its outcome is written (R113). -/
def ninthTaken (s : State) (c : Byte) : State :=
  { s with win := s.win.set 8 c, fill := 0, pos := s.pos + 1, frames := s.frames + 1 }

/-- The operations whose event is a stream symbol. -/
def isStream : Instr → Bool
  | .byte _ => true
  | .byteHunt0 _ => true
  | .byteHunt1 _ => true
  | .byteCollect _ => true
  | .byteNinth _ => true
  | .eos => true
  | .fault => true
  | .accept _ => true
  | .rejCsum _ => true
  | .rejWeak _ => true
  | .rejSat _ => true
  | .rejIntf _ => true
  | .capture _ => false
  | .rdsnap _ _ => false
  | .rdstat _ _ => false
  | .reset => false

/-- The operations of a reader port. -/
def isReader : Instr → Bool
  | .byte _ => false
  | .byteHunt0 _ => false
  | .byteHunt1 _ => false
  | .byteCollect _ => false
  | .byteNinth _ => false
  | .eos => false
  | .fault => false
  | .accept _ => false
  | .rejCsum _ => false
  | .rejWeak _ => false
  | .rejSat _ => false
  | .rejIntf _ => false
  | .capture _ => true
  | .rdsnap _ _ => true
  | .rdstat _ _ => true
  | .reset => false

/-- A byte listing as slots of the inputs, each with the value of `now` in its step. -/
def byteSlots (bs : List (BitVec 64 × Byte)) : List Slot :=
  bs.map fun p => ⟨p.1, .stream (byteSymbol p.2)⟩

/-- `k` steps of the machine. -/
def runSteps (k : Nat) (s : State) : Host.Outcome State Fault Refusal := Host.Core.run core k s

/-- No two neighbours in a byte listing are both 0x59. -/
def NoHeaderIn (bs : List Byte) : Prop :=
  ∀ k, bs[k]? = some 0x59#8 → bs[k + 1]? ≠ some 0x59#8

/-- The exponent field of a binary32 pattern. -/
def exponentField (x : Word) : Nat := x.toNat / 2 ^ 23 % 256

/-- The real number a binary32 pattern stands for, zero and normal numbers (G1: one sign bit, eight exponent
bits biased by 127, 23 fraction bits). -/
def binary32Value (x : Word) : ℚ :=
  if x.toNat % 2 ^ 31 = 0 then 0
  else (-1) ^ (x.toNat / 2 ^ 31) * (1 + (x.toNat % 2 ^ 23 : Nat) / 2 ^ 23) * 2 ^ ((exponentField x : Int) - 127)

end Sys2Proof.Claims

open Sys2Proof Sys2Proof.Machine Sys2Proof.Claims

/-! ### Reset and the invariants -/

/-- R37, R210: `RESET` is accepted in every state and clears every element of the block. -/
def Obligations.ResetClearsTheBlock : Prop :=
  ∀ s : State, ∃ t, exec .reset s = .next t ∧
    t.fill = 0 ∧ t.run = .run ∧ (∀ i : Fin 9, t.win[i] = 0#8) ∧
    t.nSkip = 0#32 ∧ t.nCsum = 0#32 ∧ t.nWeak = 0#32 ∧ t.nSat = 0#32 ∧ t.nIntf = 0#32 ∧
    t.store = zeroRecord ∧ (∀ r : PortId, t.snap[r] = zeroRecord) ∧
    t.inReady = true ∧ t.closedSignal = false ∧ t.fatalSignal = false

/-- `RESET` clears the ghosts "since reset" (R24, R57) and has no label (R210); that the inputs to come,
`now` and what was shown go on is the model's choice (log entries 8, 20). -/
def Obligations.ResetKeepsTheEnvironment : Prop :=
  ∀ s : State, ∃ t, exec .reset s = .next t ∧ t.pos = 0 ∧ t.frames = 0 ∧ t.published = [] ∧
    t.inputs = s.inputs ∧ t.beyond = s.beyond ∧ t.now = s.now ∧ t.out = s.out

/-- R37: the state after reset. -/
def Obligations.ResetStateValues : Prop :=
  State.reset.fill = 0 ∧ State.reset.run = .run ∧ State.reset.nSkip = 0#32 ∧ State.reset.nCsum = 0#32 ∧
  State.reset.nWeak = 0#32 ∧ State.reset.nSat = 0#32 ∧ State.reset.nIntf = 0#32 ∧
  State.reset.store = zeroRecord ∧ (∀ r : PortId, State.reset.snap[r] = zeroRecord) ∧
  (∀ i : Fin 9, State.reset.win[i] = 0#8) ∧
  State.reset.inReady = true ∧ State.reset.closedSignal = false ∧ State.reset.fatalSignal = false

/-- R35: the invariants hold right after reset. -/
def Obligations.InvariantHoldsAtReset : Prop := State.reset.Inv

/-- R35: every step keeps the invariants I1 to I7. -/
def Obligations.StepKeepsInvariant : Prop :=
  ∀ s t : State, s.Inv → step s = .next t → t.Inv

/-- R35 I3, I4, I5 for the store and, by I6, for every snapshot. -/
def Obligations.InvariantBoundsRecords : Prop :=
  ∀ s : State, s.Inv → ∀ x : Record, (x = s.store ∨ ∃ r : PortId, x = s.snap[r]) →
    (x.valid = false → x = zeroRecord) ∧
    (x.valid = true → 10 ≤ x.str.toNat ∧ x.dist.toNat ≠ 65532 ∧ x.dist.toNat ≠ 65534 ∧
      x.dist.toNat ≠ 65535 ∧ ∃ raw : Half, x.temp = tempPattern raw)

/-- R35 I7, with `pos < 2^32`, which rules out a wrapped counter (the premise is the model's). -/
def Obligations.ByteCountIdentity : Prop :=
  ∀ s : State, s.Inv → s.pos < 2 ^ 32 →
    s.pos = s.nSkip.toNat +
      9 * (s.store.gen.toNat + s.nCsum.toNat + s.nWeak.toNat + s.nSat.toNat + s.nIntf.toNat) + s.fill.val

/-! ### The framer -/

/-- R110: a byte with nothing held, as `BYTE.hunt0` and as `BYTE`. -/
def Obligations.HuntFirstByte : Prop :=
  ∀ (s : State) (v : Byte) (i : Instr), s.run = .run → s.fill = 0 → (i = .byteHunt0 v ∨ i = .byte v) →
    exec i s = .next
      (if v = 0x59#8 then
        { s with win := s.win.set 0 v, fill := 1, pos := s.pos + 1, out := .label .hold :: s.out }
      else { s with nSkip := s.nSkip + 1#32, pos := s.pos + 1, out := .label (.skip 1) :: s.out })

/-- R111: a byte with one 0x59 held, as `BYTE.hunt1` and as `BYTE`. -/
def Obligations.HuntSecondByte : Prop :=
  ∀ (s : State) (v : Byte) (i : Instr), s.run = .run → s.fill = 1 → (i = .byteHunt1 v ∨ i = .byte v) →
    exec i s = .next
      (if v = 0x59#8 then
        { s with win := s.win.set 1 v, fill := 2, pos := s.pos + 1, out := .label .hold :: s.out }
      else
        { s with fill := 0, nSkip := s.nSkip + 2#32, pos := s.pos + 1, out := .label (.skip 2) :: s.out })

/-- R112: a payload byte, as `BYTE.collect` and as `BYTE`, whatever its value. -/
def Obligations.CollectPayloadByte : Prop :=
  ∀ (s : State) (v : Byte) (i : Instr) (n : Fin 9), s.run = .run → 2 ≤ s.fill.val → s.fill.val ≤ 7 →
    n.val = s.fill.val + 1 → (i = .byteCollect v ∨ i = .byte v) →
    exec i s = .next
      { s with win := s.win.set s.fill v, fill := n, pos := s.pos + 1, out := .label .hold :: s.out }

/-- R116: the transitions of `fill` for a consumed byte. -/
def Obligations.FillFollowsTransitionTable : Prop :=
  ∀ (s : State) (v : Byte), s.run = .run → ∃ t, exec (.byte v) s = .next t ∧
    t.fill.val =
      if s.fill.val = 8 then 0
      else if s.fill.val ≤ 1 then (if v = 0x59#8 then s.fill.val + 1 else 0)
      else s.fill.val + 1

/-- R114: after a header the nine bytes of the window are all consumed, whatever the outcome, and the
framer hunts again with the byte after them. -/
def Obligations.HeaderOpensNineByteWindow : Prop :=
  ∀ (s : State) (bs : List (BitVec 64 × Byte)) (rest : List Slot), s.run = .run → s.fill = 0 →
    bs.length = 9 → (bs.map Prod.snd).take 2 = [0x59#8, 0x59#8] → s.inputs = byteSlots bs ++ rest →
    ∃ t, runSteps 9 s = .next t ∧ t.run = .run ∧ t.fill = 0 ∧ t.inputs = rest ∧
      t.win.toList = bs.map Prod.snd ∧ t.nSkip = s.nSkip ∧ t.frames = s.frames + 1 ∧ t.pos = s.pos + 9

/-- R115: the framer locks on to the first pair of 0x59 bytes, and counts every byte before it. -/
def Obligations.EarliestHeaderFound : Prop :=
  ∀ (s : State) (pre : List (BitVec 64 × Byte)) (t0 t1 : BitVec 64) (rest : List Slot),
    s.run = .run → s.fill = 0 → NoHeaderIn (pre.map Prod.snd ++ [0x59#8]) →
    s.inputs = byteSlots (pre ++ [(t0, 0x59#8), (t1, 0x59#8)]) ++ rest →
    ∃ t, runSteps (pre.length + 2) s = .next t ∧ t.fill = 2 ∧ t.win[0] = 0x59#8 ∧ t.win[1] = 0x59#8 ∧
      t.nSkip = s.nSkip + BitVec.ofNat 32 pre.length ∧ t.inputs = rest ∧ t.store = s.store

/-- R117: nine bytes from `fill = 0` that do not open with the header leave the store alone. -/
def Obligations.HeaderlessWindowLeavesStore : Prop :=
  ∀ (s : State) (bs : List (BitVec 64 × Byte)) (rest : List Slot), s.run = .run → s.fill = 0 →
    bs.length = 9 → (bs.map Prod.snd).take 2 ≠ [0x59#8, 0x59#8] → s.inputs = byteSlots bs ++ rest →
    ∃ t, runSteps 9 s = .next t ∧ t.store = s.store ∧ t.published = s.published ∧ t.inputs = rest

/-- R119: a byte that is not the ninth writes no store, run state or snapshot, and does not read `now`. -/
def Obligations.OnlyNinthByteTouchesStore : Prop :=
  ∀ (s : State) (v : Byte) (n : BitVec 64), s.fill ≠ 8 → ∃ t, exec (.byte v) s = .next t ∧
    t.store = s.store ∧ t.published = s.published ∧ t.run = s.run ∧ t.snap = s.snap ∧
    exec (.byte v) { s with now := n } = .next { t with now := n }

/-! ### The frame outcomes -/

/-- R142, R140, R141: a valid frame that passes the filter is published in the step of its ninth byte, as
`ACCEPT`, `BYTE.ninth` and `BYTE`. -/
def Obligations.FrameAccepted : Prop :=
  ∀ (s : State) (f : Frame) (i : Instr), Pending s f → ChecksumValid f → 10 ≤ f.str.toNat →
    f.dist.toNat ≠ 65532 → f.dist.toNat ≠ 65534 → f.dist.toNat ≠ 65535 →
    (i = .accept f ∨ i = .byteNinth f.csum ∨ i = .byte f.csum) →
    exec i s = .next
      { ninthTaken s f.csum with
        store := publishedRecord f s.now s.store.gen
        published := publishedRecord f s.now s.store.gen :: s.published
        out := .label .accept :: s.out }

/-- R143: a checksum mismatch counts in `n_csum` and nothing else, whatever the fields are. -/
def Obligations.FrameChecksumRejected : Prop :=
  ∀ (s : State) (f : Frame) (i : Instr), Pending s f → ¬ ChecksumValid f →
    (i = .rejCsum f ∨ i = .byteNinth f.csum ∨ i = .byte f.csum) →
    exec i s = .next
      { ninthTaken s f.csum with nCsum := s.nCsum + 1#32, out := .label .rejCsum :: s.out }

/-- R144: a weak signal counts in `n_weak`, whatever the distance is. -/
def Obligations.FrameWeakRejected : Prop :=
  ∀ (s : State) (f : Frame) (i : Instr), Pending s f → ChecksumValid f → f.str.toNat < 10 →
    (i = .rejWeak f ∨ i = .byteNinth f.csum ∨ i = .byte f.csum) →
    exec i s = .next
      { ninthTaken s f.csum with nWeak := s.nWeak + 1#32, out := .label .rejWeak :: s.out }

/-- R145: distances 65534 and 65535 count in `n_sat`. -/
def Obligations.FrameSaturatedRejected : Prop :=
  ∀ (s : State) (f : Frame) (i : Instr), Pending s f → ChecksumValid f → 10 ≤ f.str.toNat →
    (f.dist.toNat = 65534 ∨ f.dist.toNat = 65535) →
    (i = .rejSat f ∨ i = .byteNinth f.csum ∨ i = .byte f.csum) →
    exec i s = .next
      { ninthTaken s f.csum with nSat := s.nSat + 1#32, out := .label .rejSat :: s.out }

/-- R146: distance 65532 counts in `n_intf`. -/
def Obligations.FrameInterferenceRejected : Prop :=
  ∀ (s : State) (f : Frame) (i : Instr), Pending s f → ChecksumValid f → 10 ≤ f.str.toNat →
    f.dist.toNat = 65532 →
    (i = .rejIntf f ∨ i = .byteNinth f.csum ∨ i = .byte f.csum) →
    exec i s = .next
      { ninthTaken s f.csum with nIntf := s.nIntf + 1#32, out := .label .rejIntf :: s.out }

/-- R91, R118: the decode map row by row: the case that `fill` picks, and for the ninth byte the frame
outcome that the sum, the strength and the distance of the window pick; and a byte does what its row does. -/
def Obligations.ByteIsItsDecodeMapRow : Prop :=
  ∀ (s : State) (v : Byte), ∃ f : Frame,
    (s.fill.val = 0 → byteCase s.fill v = .byteHunt0 v) ∧
    (s.fill.val = 1 → byteCase s.fill v = .byteHunt1 v) ∧
    (2 ≤ s.fill.val → s.fill.val ≤ 7 → byteCase s.fill v = .byteCollect v) ∧
    (s.fill.val = 8 → byteCase s.fill v = .byteNinth v) ∧
    (s.fill.val ≤ 7 → byteRow s.fill s.win v = byteCase s.fill v) ∧
    f.dist.toNat = s.win[2].toNat + 256 * s.win[3].toNat ∧
    f.str.toNat = s.win[4].toNat + 256 * s.win[5].toNat ∧
    f.raw.toNat = s.win[6].toNat + 256 * s.win[7].toNat ∧ f.csum = v ∧
    (s.fill.val = 8 → byteRow s.fill s.win v =
      if sumNat s.win % 256 ≠ v.toNat then .rejCsum f
      else if f.str.toNat < 10 then .rejWeak f
      else if f.dist.toNat = 65534 ∨ f.dist.toNat = 65535 then .rejSat f
      else if f.dist.toNat = 65532 then .rejIntf f
      else .accept f) ∧
    exec (byteCase s.fill v) s = exec (.byte v) s ∧ exec (byteRow s.fill s.win v) s = exec (.byte v) s

/-- The model's choice (log entries 10 and 11): in every state a case of `BYTE` and a frame row do what
their symbol does. -/
def Obligations.RowsFollowTheirSymbol : Prop :=
  (∀ (s : State) (v : Byte) (i : Instr),
    (i = .byteHunt0 v ∨ i = .byteHunt1 v ∨ i = .byteCollect v ∨ i = .byteNinth v) →
    exec i s = exec (.byte v) s) ∧
  (∀ (s : State) (f : Frame) (i : Instr),
    (i = .accept f ∨ i = .rejCsum f ∨ i = .rejWeak f ∨ i = .rejSat f ∨ i = .rejIntf f) →
    exec i s = exec (.byte f.csum) s)

/-- R147 (P2): distance 65535, or strength below 10, is never accepted, whatever else the frame holds. -/
def Obligations.SentinelOrWeakNeverAccepted : Prop :=
  ∀ (s : State) (v : Byte), s.run = .run → s.fill = 8 →
    (s.win[2].toNat + 256 * s.win[3].toNat = 65535 ∨ s.win[4].toNat + 256 * s.win[5].toNat < 10) →
    ∃ t, exec (.byte v) s = .next t ∧ t.store = s.store ∧ t.published = s.published ∧ t.run = .run ∧
      t.fill = 0

/-- R148: one changed byte among `b2..b8` of a checksum-valid frame is always a checksum mismatch. -/
def Obligations.OneCorruptByteIsCaught : Prop :=
  ∀ (s : State) (v : Byte), s.run = .run → s.fill = 8 → sumNat s.win % 256 = v.toNat →
    (∀ (k : Fin 9) (b : Byte), 2 ≤ k.val → k.val < 8 → b ≠ s.win[k] →
      exec (.byte v) { s with win := s.win.set k b } = .next
        { ninthTaken { s with win := s.win.set k b } v with
          nCsum := s.nCsum + 1#32, out := .label .rejCsum :: s.out }) ∧
    (∀ b : Byte, b ≠ v →
      exec (.byte b) s = .next
        { ninthTaken s b with nCsum := s.nCsum + 1#32, out := .label .rejCsum :: s.out })

/-- R137: the stored pattern is exactly `rawTemp/8 − 256`, never a NaN, an infinity or a subnormal, and
zero is +0.0. That `f32` is binary32 is presumed (the spec's G1, log entry 13). -/
def Obligations.TemperatureIsExact : Prop :=
  ∀ raw : Half,
    binary32Value (tempPattern raw) = (raw.toNat : ℚ) / 8 - 256 ∧
    exponentField (tempPattern raw) ≠ 255 ∧
    (exponentField (tempPattern raw) = 0 → tempPattern raw = 0#32)

/-- R30, R51, R53, R140: an operation that changes the store is `RESET`, or the ninth byte of a frame that
is valid and passes the filter, which writes all six values of that frame together. -/
def Obligations.StoreWrittenOnlyByPublish : Prop :=
  ∀ (i : Instr) (s t : State), exec i s = .next t →
    t.store = s.store ∨ i = .reset ∨
    (isStream i = true ∧ s.run = .run ∧ s.fill = 8 ∧ sumNat s.win % 256 = t.win[8].toNat ∧
      10 ≤ s.win[4].toNat + 256 * s.win[5].toNat ∧
      s.win[2].toNat + 256 * s.win[3].toNat ≠ 65532 ∧ s.win[2].toNat + 256 * s.win[3].toNat ≠ 65534 ∧
      s.win[2].toNat + 256 * s.win[3].toNat ≠ 65535 ∧
      t.store.valid = true ∧ t.store.dist.toNat = s.win[2].toNat + 256 * s.win[3].toNat ∧
      t.store.str.toNat = s.win[4].toNat + 256 * s.win[5].toNat ∧
      (∃ raw : Half, raw.toNat = s.win[6].toNat + 256 * s.win[7].toNat ∧ t.store.temp = tempPattern raw) ∧
      t.store.time = s.now ∧ t.store.gen = s.store.gen + 1#32)

/-- S1c of 95_test_vectors.md for every frame: the nine bytes of a valid frame from `fill = 0` publish it
with the `now` of the ninth step; no byte is skipped. -/
def Obligations.WholeFramePublishes : Prop :=
  ∀ (s : State) (f : Frame) (ts : List (BitVec 64)) (tn : BitVec 64) (rest : List Slot),
    s.run = .run → s.fill = 0 → ChecksumValid f → 10 ≤ f.str.toNat →
    f.dist.toNat ≠ 65532 → f.dist.toNat ≠ 65534 → f.dist.toNat ≠ 65535 → ts.length = 8 →
    s.inputs = byteSlots ((ts ++ [tn]).zip (framexBytes f.dist f.str f.raw f.csum)) ++ rest →
    ∃ t, runSteps 9 s = .next t ∧ t.store = publishedRecord f tn s.store.gen ∧ t.fill = 0 ∧ t.run = .run ∧
      t.nSkip = s.nSkip ∧ t.nCsum = s.nCsum ∧ t.nWeak = s.nWeak ∧ t.nSat = s.nSat ∧ t.nIntf = s.nIntf ∧
      t.snap = s.snap ∧ t.inputs = rest ∧
      t.out = .label .accept :: (List.replicate 8 (.label .hold) ++ s.out)

/-! ### Termination -/

/-- R150: `EOS` writes `run` only; `closed` rises and `in_ready` falls, wherever the frame stood. -/
def Obligations.EndOfStreamCloses : Prop :=
  ∀ s : State, s.run = .run → ∃ t, exec .eos s = .next t ∧
    t = { s with run := .closed, out := .label .closed :: s.out } ∧
    t.closedSignal = true ∧ t.fatalSignal = false ∧ t.inReady = false

/-- R151: `FAULT` writes `run` only; `fatal` rises and `in_ready` falls. -/
def Obligations.TransportFaultIsFatal : Prop :=
  ∀ s : State, s.run = .run → ∃ t, exec .fault s = .next t ∧
    t = { s with run := .fatal, out := .label .fatal :: s.out } ∧
    t.fatalSignal = true ∧ t.closedSignal = false ∧ t.inReady = false

/-- R152, R118: once the loop has ended, no symbol is consumed and the block's state is frozen. -/
def Obligations.NothingConsumedAfterTermination : Prop :=
  ∀ (s : State) (i : Instr), s.run ≠ .run → isStream i = true → exec i s = .next s ∧ s.inReady = false

/-- R25, R153: `run` leaves `RUN` only by `EOS` or `FAULT` and returns to it only by `RESET`. -/
def Obligations.RunMovesOnlyByTerminalSymbolsAndReset : Prop :=
  ∀ (i : Instr) (s t : State), exec i s = .next t →
    t.run = s.run ∨ (i = .eos ∧ s.run = .run ∧ t.run = .closed) ∨
    (i = .fault ∧ s.run = .run ∧ t.run = .fatal) ∨ (i = .reset ∧ t.run = .run)

/-! ### Readers -/

/-- R160, R54: a capture copies the six values of the store and changes nothing else, in every state. -/
def Obligations.CaptureCopiesStore : Prop :=
  ∀ (s : State) (r : PortId), ∃ t, exec (.capture r) s = .next t ∧ t.snap[r] = s.store ∧
    (∀ r' : PortId, r' ≠ r → t.snap[r'] = s.snap[r']) ∧ t = { s with snap := t.snap }

/-- R161, R63: the words 0..7 of port `r`; nothing but the output is written. -/
def Obligations.SnapshotWordsRead : Prop :=
  ∀ (s : State) (r : PortId) (k : BitVec 4), k.toNat < 8 → ∃ w : Word,
    exec (.rdsnap r k) s = .next { s with out := .read r k w :: s.out } ∧
    w.toNat =
      if k.toNat = 0 then s.snap[r].dist.toNat + 65536 * s.snap[r].str.toNat
      else if k.toNat = 1 then s.snap[r].temp.toNat
      else if k.toNat = 2 then s.snap[r].time.toNat % 2 ^ 32
      else if k.toNat = 3 then s.snap[r].time.toNat / 2 ^ 32
      else if k.toNat = 4 then s.snap[r].gen.toNat
      else if k.toNat = 5 then (if s.snap[r].valid then 1 else 0)
      else 0

/-- R162, R62, R63: the words 8..15, the same on every port; nothing but the output is written. -/
def Obligations.StatusWordsRead : Prop :=
  ∀ (s : State) (r : PortId) (k : BitVec 4), 8 ≤ k.toNat → ∃ w : Word,
    exec (.rdstat r k) s = .next { s with out := .read r k w :: s.out } ∧
    w.toNat =
      if k.toNat = 8 then
        (match s.run with | .run => 0 | .closed => 1 | .fatal => 2) + (if s.store.valid then 4 else 0) +
          16 * s.fill.val
      else if k.toNat = 9 then s.store.gen.toNat
      else if k.toNat = 10 then s.nSkip.toNat
      else if k.toNat = 11 then s.nCsum.toNat
      else if k.toNat = 12 then s.nWeak.toNat
      else if k.toNat = 13 then s.nSat.toNat
      else if k.toNat = 14 then s.nIntf.toNat
      else 0

/-- R90: the fields of the snapshot vector; bits [159:0] are words 0..4, low word first, and bit 160 is
bit 0 of word 5. -/
def Obligations.SnapshotVectorLayout : Prop :=
  ∀ (s : State) (r : PortId),
    (s.snapVec r).toNat =
      s.snap[r].dist.toNat + 2 ^ 16 * s.snap[r].str.toNat + 2 ^ 32 * s.snap[r].temp.toNat +
      2 ^ 64 * s.snap[r].time.toNat + 2 ^ 128 * s.snap[r].gen.toNat +
      2 ^ 160 * (if s.snap[r].valid then 1 else 0) ∧
    (s.snapVec r).toNat =
      (s.regRead r 0#4).toNat + 2 ^ 32 * (s.regRead r 1#4).toNat + 2 ^ 64 * (s.regRead r 2#4).toNat +
      2 ^ 96 * (s.regRead r 3#4).toNat + 2 ^ 128 * (s.regRead r 4#4).toNat +
      2 ^ 160 * ((s.regRead r 5#4).toNat % 2)

/-- R164: `read()`: a capture gives the stored record with its generation, or nothing while the store is
unset. -/
def Obligations.ReadReturnsStoredRecord : Prop :=
  ∀ (s : State) (r : PortId), ∃ t, exec (.capture r) s = .next t ∧
    (s.store.valid = false → t.readResult r = none) ∧
    (s.store.valid = true →
      t.readResult r = some ⟨s.store.dist, s.store.str, s.store.temp, s.store.time, s.store.gen⟩)

/-- R57: a capture after the n-th publish since reset leaves that record with generation n modulo 2^32; one
before the first leaves the unset record. -/
def Obligations.CaptureSeesLastPublish : Prop :=
  ∀ (s : State) (r : PortId), s.Inv → ∃ t, exec (.capture r) s = .next t ∧
    (s.published = [] → t.snap[r] = zeroRecord) ∧
    (∀ (x : Record) (older : List Record), s.published = x :: older →
      t.snap[r] = x ∧ x.valid = true ∧ x.gen = BitVec.ofNat 32 (older.length + 1))

/-- R163: a reader operation always completes, writes no element but its own snapshot register, and only a
capture writes that. -/
def Obligations.ReadersCannotDisturb : Prop :=
  ∀ (i : Instr) (s : State), isReader i = true → ∃ t, exec i s = .next t ∧
    t = { s with snap := t.snap, out := t.out } ∧
    ∀ r : PortId, i ≠ .capture r → t.snap[r] = s.snap[r]

/-- R32: only `CAPTURE r` and `RESET` change `snap[r]`. -/
def Obligations.SnapshotChangesOnlyOnCapture : Prop :=
  ∀ (i : Instr) (s t : State) (r : PortId), exec i s = .next t → i ≠ .capture r → i ≠ .reset →
    t.snap[r] = s.snap[r]

/-- R163, R183: what the readers hold makes no difference to the stream side. -/
def Obligations.StreamSideIgnoresSnapshots : Prop :=
  ∀ (i : Instr) (s : State) (m : Vector Record 2), isStream i = true → ∃ t, exec i s = .next t ∧
    t.snap = s.snap ∧ exec i { s with snap := m } = .next { t with snap := m }

/-- R59: records published fewer than 2^32 publishes apart have equal generations exactly if they are of one
publish, and those exactly 2^32 apart cannot be told apart. Every valid snapshot and a valid store stand at a
place in the list of publishes (newest first, log entry 9), so snapshots with equal generations that close
hold the same record, and so does one whose generation is the live `gen`. -/
def Obligations.EqualGenerationsSameRecord : Prop :=
  ∀ s : State, s.Inv →
    (∀ (i j : Nat) (x y : Record), s.published[i]? = some x → s.published[j]? = some y →
      (i < j + 2 ^ 32 → j < i + 2 ^ 32 → (x.gen = y.gen ↔ i = j)) ∧ (j = i + 2 ^ 32 → x.gen = y.gen)) ∧
    (∀ r : PortId, s.snap[r].valid = true → ∃ i : Nat, s.published[i]? = some s.snap[r]) ∧
    (s.store.valid = true → s.published[0]? = some s.store) ∧
    (∀ (r r' : PortId) (i j : Nat), s.published[i]? = some s.snap[r] → s.published[j]? = some s.snap[r'] →
      i < j + 2 ^ 32 → j < i + 2 ^ 32 → s.snap[r].gen = s.snap[r'].gen → s.snap[r] = s.snap[r']) ∧
    (∀ (r : PortId) (i : Nat), s.published[i]? = some s.snap[r] → i < 2 ^ 32 →
      s.snap[r].gen = s.store.gen → s.snap[r] = s.store)

/-- R58: the sequence of publishes only grows, one record a step, but for `RESET`. -/
def Obligations.PublishesOnlyGrow : Prop :=
  ∀ (i : Instr) (s t : State), exec i s = .next t → i ≠ .reset →
    t.published = s.published ∨ t.published = t.store :: s.published

/-! ### Encodings -/

/-- R86: the masks and matches of the stream symbol; the data of a `BYTE` is the low eight bits. -/
def Obligations.SymbolDecodesByMasks : Prop :=
  ∀ sym : BitVec 10,
    (sym &&& 0x200#10 = 0x200#10 → decodeSymbol sym = .fault) ∧
    (sym &&& 0x300#10 = 0x100#10 → decodeSymbol sym = .eos) ∧
    (sym &&& 0x300#10 = 0x000#10 → ∃ v : Byte, decodeSymbol sym = .byte v ∧ v.toNat = sym.toNat)

/-- R88: the masks and matches of the reader command. -/
def Obligations.CommandDecodesByMasks : Prop :=
  ∀ (r : PortId) (cmd : BitVec 5),
    (cmd &&& 0x10#5 = 0x10#5 → decodeCommand r cmd = .capture r) ∧
    (cmd &&& 0x18#5 = 0x00#5 → ∃ k : BitVec 4, decodeCommand r cmd = .rdsnap r k ∧ k.toNat = cmd.toNat) ∧
    (cmd &&& 0x18#5 = 0x08#5 → ∃ k : BitVec 4, decodeCommand r cmd = .rdstat r k ∧ k.toNat = cmd.toNat)

/-- R81: a 72-bit word without the header is refused; any other is the word of the row it decodes to, so no
bit of a frame is dropped. -/
def Obligations.FrameWordsDecodeFaithfully : Prop :=
  ∀ w : BitVec 72,
    (w.toNat / 2 ^ 56 ≠ 0x5959 → decodeFrame w = .error .noHeader) ∧
    (w.toNat / 2 ^ 56 = 0x5959 → ∃ i, decodeFrame w = .ok i ∧ i.wellFormed = true ∧
      encode i = ⟨.frame, w.toNat⟩)

/-- Decoding the word of a well-formed operation gives it back (for a case of `BYTE`, `BYTE`: the words are
the same, log entry 10). -/
def Obligations.DecodeEncodeRoundTrip : Prop :=
  ∀ i : Instr, i.wellFormed = true → decode (encode i) = .ok (wordInstr i)

/-- Whatever the decoder reads is well-formed. -/
def Obligations.DecodedIsWellFormed : Prop :=
  ∀ (p : PortWord) (i : Instr), decode p = .ok i → i.wellFormed = true

/-- Words of 95_test_vectors.md (Y1, Y5, Y7, C2v, C4v, C5v, S1c, S1) and the word of `rst` (R89), with the
operations they stand for. That a command on port 2 is refused, by name, rests on the closing sentence of Part
1 of 93_implementation_defined.md (log entry 12) and on `NR = 2` (log entry 1). -/
def Obligations.SpecWordsDecode : Prop :=
  decode ⟨.stream, 0x059⟩ = .ok (.byte 0x59#8) ∧ decode ⟨.stream, 0x1AB⟩ = .ok .eos ∧
  decode ⟨.stream, 0x300⟩ = .ok .fault ∧ decode ⟨.reader 1, 0x1F⟩ = .ok (.capture 1) ∧
  decode ⟨.reader 0, 0x07⟩ = .ok (.rdsnap 0 7#4) ∧ decode ⟨.reader 0, 0x08⟩ = .ok (.rdstat 0 8#4) ∧
  decode ⟨.host, 1⟩ = .ok .reset ∧
  decode ⟨.frame, 0x5959640032008008D0⟩ = .ok (.accept ⟨100#16, 50#16, 2176#16, 0xD0#8⟩) ∧
  decode ⟨.frame, 0x5959640032008008E3⟩ = .ok (.rejCsum ⟨100#16, 50#16, 2176#16, 0xE3#8⟩) ∧
  decode ⟨.reader 2, 0x10⟩ = .error .noSuchPort

/-! ### The step -/

/-- A step takes the next slot, puts its `now` on the time input, decodes what the port carries and
executes it (R56, R87 to R89). The list of slots is the model's (log entries 4, 5), and so is that a slot
passes when its symbol is not consumed, after the loop has ended (log entry 3). -/
def Obligations.StepRunsOfferedEvent : Prop :=
  ∀ (s : State) (n : BitVec 64) (rest : List Slot),
    (∀ sym : BitVec 10, s.inputs = ⟨n, .stream sym⟩ :: rest →
      step s = exec (decodeSymbol sym) { s with inputs := rest, now := n }) ∧
    (∀ (r : PortId) (cmd : BitVec 5), s.inputs = ⟨n, .command r cmd⟩ :: rest →
      step s = exec (decodeCommand r cmd) { s with inputs := rest, now := n }) ∧
    (s.inputs = ⟨n, .rst⟩ :: rest → step s = exec .reset { s with inputs := rest, now := n })

/-- R87, R193: while nothing is offered the block waits with its state unchanged. -/
def Obligations.IdleBlockWaits : Prop :=
  ∀ s : State,
    (s.inputs = [] → s.beyond = none → step s = .next s) ∧
    (∀ (n : BitVec 64) (rest : List Slot), s.inputs = ⟨n, .idle⟩ :: rest →
      step s = .next { s with inputs := rest, now := n })

/-- R15: the inputs may be endless. After any listing `l` the run goes on through the slots of the endless
sequence, one a step and for ever, exactly as if they stood in the listing. The sequence is a free value of
the model (log entry 20). -/
def Obligations.EndlessInputRunsLikeItsListing : Prop :=
  ∀ (k n : Nat) (l : List Slot) (s : State), s.inputs = l → s.beyond = some n →
    ∃ t, runSteps (l.length + k) s = .next t ∧ t.inputs = [] ∧ t.beyond = some (n + k) ∧
      runSteps (l.length + k)
        { s with inputs := l ++ (List.range' n k).map Config.freeSlot, beyond := some (n + k) } = .next t

/-- R65, R231: no agent ever waits for another: an offered event is dealt with in its one step. In `RUN` a
symbol has its label, a byte is counted and a terminal symbol ends the loop; a capture and a read complete in
every run state, and so does `RESET`. That a state to which nothing is offered, or a symbol after the loop has
ended, has a next state too is the model's choice (log entries 4 and 3). -/
def Obligations.StepAlwaysAnswers : Prop :=
  ∀ s : State, ∃ t, step s = .next t ∧ ∀ (slot : Slot) (rest : List Slot), s.inputs = slot :: rest →
    t.inputs = rest ∧ t.beyond = s.beyond ∧ t.now = slot.now ∧
    (∀ sym : BitVec 10, slot.event = .stream sym → s.run = .run →
      (∃ l : Label, t.out = .label l :: s.out) ∧ (sym.toNat < 256 → t.pos = s.pos + 1) ∧
      (256 ≤ sym.toNat → t.run ≠ .run)) ∧
    (∀ (r : PortId) (cmd : BitVec 5), slot.event = .command r cmd →
      (16 ≤ cmd.toNat → t.snap[r] = s.store) ∧
      (cmd.toNat < 16 → ∃ (k : BitVec 4) (w : Word), k.toNat = cmd.toNat ∧ t.out = .read r k w :: s.out)) ∧
    (slot.event = .rst → t.run = .run ∧ t.fill = 0 ∧ t.store = zeroRecord)

/-- R73: a capture accepted at the edge of a stream byte leaves the store from before the byte in the
snapshot, and the byte does what it does alone. -/
def Obligations.CoincidentCaptureSeesOldStore : Prop :=
  ∀ (s : State) (n : BitVec 64) (r : PortId) (v : Byte), ∃ t u,
    runSteps 2 (s.offerEdge n ⟨false, some (byteSymbol v), [(r, captureCommand)]⟩) = .next t ∧
    exec (.byte v) { s with now := n } = .next u ∧
    t.snap[r] = s.store ∧ t.store = u.store ∧ t.fill = u.fill ∧ t.win = u.win ∧ t.inputs = s.inputs

/-- R73: a reset at an edge wins over every other event of the edge. -/
def Obligations.ResetWinsTheEdge : Prop :=
  ∀ (s : State) (n : BitVec 64) (sym : Option (BitVec 10)) (cmds : List (PortId × BitVec 5)),
    step (s.offerEdge n ⟨true, sym, cmds⟩) = exec .reset { s with now := n }

/-- R24 (c): the running checksum is the sum of the bytes held, modulo 256, at every `fill`; a byte that is
held adds itself, and where `fill` goes back to 0 it starts from 0. -/
def Obligations.RunningChecksumIsTheSum : Prop :=
  ∀ s : State,
    s.acc.toNat = (∑ i : Fin 9, if i.val < s.fill.val then s.win[i].toNat else 0) % 256 ∧
    (s.fill = 8 → s.acc.toNat = sumNat s.win % 256) ∧
    (∀ v : Byte, s.run = .run → ∃ t, exec (.byte v) s = .next t ∧
      (t.fill.val = s.fill.val + 1 → t.acc = s.acc + v) ∧ (t.fill = 0 → t.acc = 0#8))
end

