-- ==== Sys2Proof/Laws/State.lean ====
section
/-!
SUPPORT. What each unconditional update of the state does to each field, once, so that no later proof
unfolds a record update.
-/
namespace Sys2Proof.Machine

variable (s : State)

@[simp] theorem State.emit_win (l : Label) : (s.emit l).win = s.win := rfl
@[simp] theorem State.emit_fill (l : Label) : (s.emit l).fill = s.fill := rfl
@[simp] theorem State.emit_run (l : Label) : (s.emit l).run = s.run := rfl
@[simp] theorem State.emit_nSkip (l : Label) : (s.emit l).nSkip = s.nSkip := rfl
@[simp] theorem State.emit_nCsum (l : Label) : (s.emit l).nCsum = s.nCsum := rfl
@[simp] theorem State.emit_nWeak (l : Label) : (s.emit l).nWeak = s.nWeak := rfl
@[simp] theorem State.emit_nSat (l : Label) : (s.emit l).nSat = s.nSat := rfl
@[simp] theorem State.emit_nIntf (l : Label) : (s.emit l).nIntf = s.nIntf := rfl
@[simp] theorem State.emit_store (l : Label) : (s.emit l).store = s.store := rfl
@[simp] theorem State.emit_snap (l : Label) : (s.emit l).snap = s.snap := rfl
@[simp] theorem State.emit_pos (l : Label) : (s.emit l).pos = s.pos := rfl
@[simp] theorem State.emit_frames (l : Label) : (s.emit l).frames = s.frames := rfl
@[simp] theorem State.emit_published (l : Label) : (s.emit l).published = s.published := rfl
@[simp] theorem State.emit_inputs (l : Label) : (s.emit l).inputs = s.inputs := rfl
@[simp] theorem State.emit_beyond (l : Label) : (s.emit l).beyond = s.beyond := rfl
@[simp] theorem State.emit_now (l : Label) : (s.emit l).now = s.now := rfl
@[simp] theorem State.emit_out (l : Label) : (s.emit l).out = .label l :: s.out := rfl

@[simp] theorem State.showRead_win (r : PortId) (k : BitVec 4) (w : Word) : (s.showRead r k w).win = s.win := rfl
@[simp] theorem State.showRead_fill (r : PortId) (k : BitVec 4) (w : Word) : (s.showRead r k w).fill = s.fill := rfl
@[simp] theorem State.showRead_run (r : PortId) (k : BitVec 4) (w : Word) : (s.showRead r k w).run = s.run := rfl
@[simp] theorem State.showRead_nSkip (r : PortId) (k : BitVec 4) (w : Word) : (s.showRead r k w).nSkip = s.nSkip := rfl
@[simp] theorem State.showRead_nCsum (r : PortId) (k : BitVec 4) (w : Word) : (s.showRead r k w).nCsum = s.nCsum := rfl
@[simp] theorem State.showRead_nWeak (r : PortId) (k : BitVec 4) (w : Word) : (s.showRead r k w).nWeak = s.nWeak := rfl
@[simp] theorem State.showRead_nSat (r : PortId) (k : BitVec 4) (w : Word) : (s.showRead r k w).nSat = s.nSat := rfl
@[simp] theorem State.showRead_nIntf (r : PortId) (k : BitVec 4) (w : Word) : (s.showRead r k w).nIntf = s.nIntf := rfl
@[simp] theorem State.showRead_store (r : PortId) (k : BitVec 4) (w : Word) : (s.showRead r k w).store = s.store := rfl
@[simp] theorem State.showRead_snap (r : PortId) (k : BitVec 4) (w : Word) : (s.showRead r k w).snap = s.snap := rfl
@[simp] theorem State.showRead_pos (r : PortId) (k : BitVec 4) (w : Word) : (s.showRead r k w).pos = s.pos := rfl
@[simp] theorem State.showRead_frames (r : PortId) (k : BitVec 4) (w : Word) : (s.showRead r k w).frames = s.frames := rfl
@[simp] theorem State.showRead_published (r : PortId) (k : BitVec 4) (w : Word) : (s.showRead r k w).published = s.published := rfl
@[simp] theorem State.showRead_inputs (r : PortId) (k : BitVec 4) (w : Word) : (s.showRead r k w).inputs = s.inputs := rfl
@[simp] theorem State.showRead_beyond (r : PortId) (k : BitVec 4) (w : Word) : (s.showRead r k w).beyond = s.beyond := rfl
@[simp] theorem State.showRead_now (r : PortId) (k : BitVec 4) (w : Word) : (s.showRead r k w).now = s.now := rfl
@[simp] theorem State.showRead_out (r : PortId) (k : BitVec 4) (w : Word) : (s.showRead r k w).out = .read r k w :: s.out := rfl

@[simp] theorem State.storeWrite_win (d st : Half) (p : Word) (t : Config.Timestamp) : (s.storeWrite d st p t).win = s.win := rfl
@[simp] theorem State.storeWrite_fill (d st : Half) (p : Word) (t : Config.Timestamp) : (s.storeWrite d st p t).fill = s.fill := rfl
@[simp] theorem State.storeWrite_run (d st : Half) (p : Word) (t : Config.Timestamp) : (s.storeWrite d st p t).run = s.run := rfl
@[simp] theorem State.storeWrite_nSkip (d st : Half) (p : Word) (t : Config.Timestamp) : (s.storeWrite d st p t).nSkip = s.nSkip := rfl
@[simp] theorem State.storeWrite_nCsum (d st : Half) (p : Word) (t : Config.Timestamp) : (s.storeWrite d st p t).nCsum = s.nCsum := rfl
@[simp] theorem State.storeWrite_nWeak (d st : Half) (p : Word) (t : Config.Timestamp) : (s.storeWrite d st p t).nWeak = s.nWeak := rfl
@[simp] theorem State.storeWrite_nSat (d st : Half) (p : Word) (t : Config.Timestamp) : (s.storeWrite d st p t).nSat = s.nSat := rfl
@[simp] theorem State.storeWrite_nIntf (d st : Half) (p : Word) (t : Config.Timestamp) : (s.storeWrite d st p t).nIntf = s.nIntf := rfl
@[simp] theorem State.storeWrite_store (d st : Half) (p : Word) (t : Config.Timestamp) : (s.storeWrite d st p t).store = ⟨true, d, st, p, t, s.store.gen + 1#32⟩ := rfl
@[simp] theorem State.storeWrite_snap (d st : Half) (p : Word) (t : Config.Timestamp) : (s.storeWrite d st p t).snap = s.snap := rfl
@[simp] theorem State.storeWrite_pos (d st : Half) (p : Word) (t : Config.Timestamp) : (s.storeWrite d st p t).pos = s.pos := rfl
@[simp] theorem State.storeWrite_frames (d st : Half) (p : Word) (t : Config.Timestamp) : (s.storeWrite d st p t).frames = s.frames := rfl
@[simp] theorem State.storeWrite_published (d st : Half) (p : Word) (t : Config.Timestamp) : (s.storeWrite d st p t).published = ⟨true, d, st, p, t, s.store.gen + 1#32⟩ :: s.published := rfl
@[simp] theorem State.storeWrite_inputs (d st : Half) (p : Word) (t : Config.Timestamp) : (s.storeWrite d st p t).inputs = s.inputs := rfl
@[simp] theorem State.storeWrite_beyond (d st : Half) (p : Word) (t : Config.Timestamp) : (s.storeWrite d st p t).beyond = s.beyond := rfl
@[simp] theorem State.storeWrite_now (d st : Half) (p : Word) (t : Config.Timestamp) : (s.storeWrite d st p t).now = s.now := rfl
@[simp] theorem State.storeWrite_out (d st : Half) (p : Word) (t : Config.Timestamp) : (s.storeWrite d st p t).out = s.out := rfl

@[simp] theorem State.rejectCsum_win : (s.rejectCsum).win = s.win := rfl
@[simp] theorem State.rejectCsum_fill : (s.rejectCsum).fill = s.fill := rfl
@[simp] theorem State.rejectCsum_run : (s.rejectCsum).run = s.run := rfl
@[simp] theorem State.rejectCsum_nSkip : (s.rejectCsum).nSkip = s.nSkip := rfl
@[simp] theorem State.rejectCsum_nCsum : (s.rejectCsum).nCsum = s.nCsum + 1#32 := rfl
@[simp] theorem State.rejectCsum_nWeak : (s.rejectCsum).nWeak = s.nWeak := rfl
@[simp] theorem State.rejectCsum_nSat : (s.rejectCsum).nSat = s.nSat := rfl
@[simp] theorem State.rejectCsum_nIntf : (s.rejectCsum).nIntf = s.nIntf := rfl
@[simp] theorem State.rejectCsum_store : (s.rejectCsum).store = s.store := rfl
@[simp] theorem State.rejectCsum_snap : (s.rejectCsum).snap = s.snap := rfl
@[simp] theorem State.rejectCsum_pos : (s.rejectCsum).pos = s.pos := rfl
@[simp] theorem State.rejectCsum_frames : (s.rejectCsum).frames = s.frames := rfl
@[simp] theorem State.rejectCsum_published : (s.rejectCsum).published = s.published := rfl
@[simp] theorem State.rejectCsum_inputs : (s.rejectCsum).inputs = s.inputs := rfl
@[simp] theorem State.rejectCsum_beyond : (s.rejectCsum).beyond = s.beyond := rfl
@[simp] theorem State.rejectCsum_now : (s.rejectCsum).now = s.now := rfl
@[simp] theorem State.rejectCsum_out : (s.rejectCsum).out = .label .rejCsum :: s.out := rfl

@[simp] theorem State.rejectWeak_win : (s.rejectWeak).win = s.win := rfl
@[simp] theorem State.rejectWeak_fill : (s.rejectWeak).fill = s.fill := rfl
@[simp] theorem State.rejectWeak_run : (s.rejectWeak).run = s.run := rfl
@[simp] theorem State.rejectWeak_nSkip : (s.rejectWeak).nSkip = s.nSkip := rfl
@[simp] theorem State.rejectWeak_nCsum : (s.rejectWeak).nCsum = s.nCsum := rfl
@[simp] theorem State.rejectWeak_nWeak : (s.rejectWeak).nWeak = s.nWeak + 1#32 := rfl
@[simp] theorem State.rejectWeak_nSat : (s.rejectWeak).nSat = s.nSat := rfl
@[simp] theorem State.rejectWeak_nIntf : (s.rejectWeak).nIntf = s.nIntf := rfl
@[simp] theorem State.rejectWeak_store : (s.rejectWeak).store = s.store := rfl
@[simp] theorem State.rejectWeak_snap : (s.rejectWeak).snap = s.snap := rfl
@[simp] theorem State.rejectWeak_pos : (s.rejectWeak).pos = s.pos := rfl
@[simp] theorem State.rejectWeak_frames : (s.rejectWeak).frames = s.frames := rfl
@[simp] theorem State.rejectWeak_published : (s.rejectWeak).published = s.published := rfl
@[simp] theorem State.rejectWeak_inputs : (s.rejectWeak).inputs = s.inputs := rfl
@[simp] theorem State.rejectWeak_beyond : (s.rejectWeak).beyond = s.beyond := rfl
@[simp] theorem State.rejectWeak_now : (s.rejectWeak).now = s.now := rfl
@[simp] theorem State.rejectWeak_out : (s.rejectWeak).out = .label .rejWeak :: s.out := rfl

@[simp] theorem State.rejectSat_win : (s.rejectSat).win = s.win := rfl
@[simp] theorem State.rejectSat_fill : (s.rejectSat).fill = s.fill := rfl
@[simp] theorem State.rejectSat_run : (s.rejectSat).run = s.run := rfl
@[simp] theorem State.rejectSat_nSkip : (s.rejectSat).nSkip = s.nSkip := rfl
@[simp] theorem State.rejectSat_nCsum : (s.rejectSat).nCsum = s.nCsum := rfl
@[simp] theorem State.rejectSat_nWeak : (s.rejectSat).nWeak = s.nWeak := rfl
@[simp] theorem State.rejectSat_nSat : (s.rejectSat).nSat = s.nSat + 1#32 := rfl
@[simp] theorem State.rejectSat_nIntf : (s.rejectSat).nIntf = s.nIntf := rfl
@[simp] theorem State.rejectSat_store : (s.rejectSat).store = s.store := rfl
@[simp] theorem State.rejectSat_snap : (s.rejectSat).snap = s.snap := rfl
@[simp] theorem State.rejectSat_pos : (s.rejectSat).pos = s.pos := rfl
@[simp] theorem State.rejectSat_frames : (s.rejectSat).frames = s.frames := rfl
@[simp] theorem State.rejectSat_published : (s.rejectSat).published = s.published := rfl
@[simp] theorem State.rejectSat_inputs : (s.rejectSat).inputs = s.inputs := rfl
@[simp] theorem State.rejectSat_beyond : (s.rejectSat).beyond = s.beyond := rfl
@[simp] theorem State.rejectSat_now : (s.rejectSat).now = s.now := rfl
@[simp] theorem State.rejectSat_out : (s.rejectSat).out = .label .rejSat :: s.out := rfl

@[simp] theorem State.rejectIntf_win : (s.rejectIntf).win = s.win := rfl
@[simp] theorem State.rejectIntf_fill : (s.rejectIntf).fill = s.fill := rfl
@[simp] theorem State.rejectIntf_run : (s.rejectIntf).run = s.run := rfl
@[simp] theorem State.rejectIntf_nSkip : (s.rejectIntf).nSkip = s.nSkip := rfl
@[simp] theorem State.rejectIntf_nCsum : (s.rejectIntf).nCsum = s.nCsum := rfl
@[simp] theorem State.rejectIntf_nWeak : (s.rejectIntf).nWeak = s.nWeak := rfl
@[simp] theorem State.rejectIntf_nSat : (s.rejectIntf).nSat = s.nSat := rfl
@[simp] theorem State.rejectIntf_nIntf : (s.rejectIntf).nIntf = s.nIntf + 1#32 := rfl
@[simp] theorem State.rejectIntf_store : (s.rejectIntf).store = s.store := rfl
@[simp] theorem State.rejectIntf_snap : (s.rejectIntf).snap = s.snap := rfl
@[simp] theorem State.rejectIntf_pos : (s.rejectIntf).pos = s.pos := rfl
@[simp] theorem State.rejectIntf_frames : (s.rejectIntf).frames = s.frames := rfl
@[simp] theorem State.rejectIntf_published : (s.rejectIntf).published = s.published := rfl
@[simp] theorem State.rejectIntf_inputs : (s.rejectIntf).inputs = s.inputs := rfl
@[simp] theorem State.rejectIntf_beyond : (s.rejectIntf).beyond = s.beyond := rfl
@[simp] theorem State.rejectIntf_now : (s.rejectIntf).now = s.now := rfl
@[simp] theorem State.rejectIntf_out : (s.rejectIntf).out = .label .rejIntf :: s.out := rfl

@[simp] theorem State.publishFrame_win (f : Frame) : (s.publishFrame f).win = s.win := rfl
@[simp] theorem State.publishFrame_fill (f : Frame) : (s.publishFrame f).fill = s.fill := rfl
@[simp] theorem State.publishFrame_run (f : Frame) : (s.publishFrame f).run = s.run := rfl
@[simp] theorem State.publishFrame_nSkip (f : Frame) : (s.publishFrame f).nSkip = s.nSkip := rfl
@[simp] theorem State.publishFrame_nCsum (f : Frame) : (s.publishFrame f).nCsum = s.nCsum := rfl
@[simp] theorem State.publishFrame_nWeak (f : Frame) : (s.publishFrame f).nWeak = s.nWeak := rfl
@[simp] theorem State.publishFrame_nSat (f : Frame) : (s.publishFrame f).nSat = s.nSat := rfl
@[simp] theorem State.publishFrame_nIntf (f : Frame) : (s.publishFrame f).nIntf = s.nIntf := rfl
@[simp] theorem State.publishFrame_store (f : Frame) : (s.publishFrame f).store = ⟨true, f.dist, f.str, tempPattern f.raw, s.now, s.store.gen + 1#32⟩ := rfl
@[simp] theorem State.publishFrame_snap (f : Frame) : (s.publishFrame f).snap = s.snap := rfl
@[simp] theorem State.publishFrame_pos (f : Frame) : (s.publishFrame f).pos = s.pos := rfl
@[simp] theorem State.publishFrame_frames (f : Frame) : (s.publishFrame f).frames = s.frames := rfl
@[simp] theorem State.publishFrame_published (f : Frame) : (s.publishFrame f).published = ⟨true, f.dist, f.str, tempPattern f.raw, s.now, s.store.gen + 1#32⟩ :: s.published := rfl
@[simp] theorem State.publishFrame_inputs (f : Frame) : (s.publishFrame f).inputs = s.inputs := rfl
@[simp] theorem State.publishFrame_beyond (f : Frame) : (s.publishFrame f).beyond = s.beyond := rfl
@[simp] theorem State.publishFrame_now (f : Frame) : (s.publishFrame f).now = s.now := rfl
@[simp] theorem State.publishFrame_out (f : Frame) : (s.publishFrame f).out = .label .accept :: s.out := rfl

@[simp] theorem State.collect_win (v : Byte) : (s.collect v).win = s.win.set s.fill v := rfl
@[simp] theorem State.collect_fill (v : Byte) : (s.collect v).fill = s.fill + 1 := rfl
@[simp] theorem State.collect_run (v : Byte) : (s.collect v).run = s.run := rfl
@[simp] theorem State.collect_nSkip (v : Byte) : (s.collect v).nSkip = s.nSkip := rfl
@[simp] theorem State.collect_nCsum (v : Byte) : (s.collect v).nCsum = s.nCsum := rfl
@[simp] theorem State.collect_nWeak (v : Byte) : (s.collect v).nWeak = s.nWeak := rfl
@[simp] theorem State.collect_nSat (v : Byte) : (s.collect v).nSat = s.nSat := rfl
@[simp] theorem State.collect_nIntf (v : Byte) : (s.collect v).nIntf = s.nIntf := rfl
@[simp] theorem State.collect_store (v : Byte) : (s.collect v).store = s.store := rfl
@[simp] theorem State.collect_snap (v : Byte) : (s.collect v).snap = s.snap := rfl
@[simp] theorem State.collect_pos (v : Byte) : (s.collect v).pos = s.pos + 1 := rfl
@[simp] theorem State.collect_frames (v : Byte) : (s.collect v).frames = s.frames := rfl
@[simp] theorem State.collect_published (v : Byte) : (s.collect v).published = s.published := rfl
@[simp] theorem State.collect_inputs (v : Byte) : (s.collect v).inputs = s.inputs := rfl
@[simp] theorem State.collect_beyond (v : Byte) : (s.collect v).beyond = s.beyond := rfl
@[simp] theorem State.collect_now (v : Byte) : (s.collect v).now = s.now := rfl
@[simp] theorem State.collect_out (v : Byte) : (s.collect v).out = .label .hold :: s.out := rfl

@[simp] theorem State.takeNinth_win (v : Byte) : (s.takeNinth v).win = s.win.set 8 v := rfl
@[simp] theorem State.takeNinth_fill (v : Byte) : (s.takeNinth v).fill = 0 := rfl
@[simp] theorem State.takeNinth_run (v : Byte) : (s.takeNinth v).run = s.run := rfl
@[simp] theorem State.takeNinth_nSkip (v : Byte) : (s.takeNinth v).nSkip = s.nSkip := rfl
@[simp] theorem State.takeNinth_nCsum (v : Byte) : (s.takeNinth v).nCsum = s.nCsum := rfl
@[simp] theorem State.takeNinth_nWeak (v : Byte) : (s.takeNinth v).nWeak = s.nWeak := rfl
@[simp] theorem State.takeNinth_nSat (v : Byte) : (s.takeNinth v).nSat = s.nSat := rfl
@[simp] theorem State.takeNinth_nIntf (v : Byte) : (s.takeNinth v).nIntf = s.nIntf := rfl
@[simp] theorem State.takeNinth_store (v : Byte) : (s.takeNinth v).store = s.store := rfl
@[simp] theorem State.takeNinth_snap (v : Byte) : (s.takeNinth v).snap = s.snap := rfl
@[simp] theorem State.takeNinth_pos (v : Byte) : (s.takeNinth v).pos = s.pos + 1 := rfl
@[simp] theorem State.takeNinth_frames (v : Byte) : (s.takeNinth v).frames = s.frames + 1 := rfl
@[simp] theorem State.takeNinth_published (v : Byte) : (s.takeNinth v).published = s.published := rfl
@[simp] theorem State.takeNinth_inputs (v : Byte) : (s.takeNinth v).inputs = s.inputs := rfl
@[simp] theorem State.takeNinth_beyond (v : Byte) : (s.takeNinth v).beyond = s.beyond := rfl
@[simp] theorem State.takeNinth_now (v : Byte) : (s.takeNinth v).now = s.now := rfl
@[simp] theorem State.takeNinth_out (v : Byte) : (s.takeNinth v).out = s.out := rfl

@[simp] theorem State.captureInto_win (r : PortId) : (s.captureInto r).win = s.win := rfl
@[simp] theorem State.captureInto_fill (r : PortId) : (s.captureInto r).fill = s.fill := rfl
@[simp] theorem State.captureInto_run (r : PortId) : (s.captureInto r).run = s.run := rfl
@[simp] theorem State.captureInto_nSkip (r : PortId) : (s.captureInto r).nSkip = s.nSkip := rfl
@[simp] theorem State.captureInto_nCsum (r : PortId) : (s.captureInto r).nCsum = s.nCsum := rfl
@[simp] theorem State.captureInto_nWeak (r : PortId) : (s.captureInto r).nWeak = s.nWeak := rfl
@[simp] theorem State.captureInto_nSat (r : PortId) : (s.captureInto r).nSat = s.nSat := rfl
@[simp] theorem State.captureInto_nIntf (r : PortId) : (s.captureInto r).nIntf = s.nIntf := rfl
@[simp] theorem State.captureInto_store (r : PortId) : (s.captureInto r).store = s.store := rfl
@[simp] theorem State.captureInto_snap (r : PortId) : (s.captureInto r).snap = s.snap.set r s.store := rfl
@[simp] theorem State.captureInto_pos (r : PortId) : (s.captureInto r).pos = s.pos := rfl
@[simp] theorem State.captureInto_frames (r : PortId) : (s.captureInto r).frames = s.frames := rfl
@[simp] theorem State.captureInto_published (r : PortId) : (s.captureInto r).published = s.published := rfl
@[simp] theorem State.captureInto_inputs (r : PortId) : (s.captureInto r).inputs = s.inputs := rfl
@[simp] theorem State.captureInto_beyond (r : PortId) : (s.captureInto r).beyond = s.beyond := rfl
@[simp] theorem State.captureInto_now (r : PortId) : (s.captureInto r).now = s.now := rfl
@[simp] theorem State.captureInto_out (r : PortId) : (s.captureInto r).out = s.out := rfl

@[simp] theorem State.resetBlock_win : (s.resetBlock).win = State.reset.win := rfl
@[simp] theorem State.resetBlock_fill : (s.resetBlock).fill = State.reset.fill := rfl
@[simp] theorem State.resetBlock_run : (s.resetBlock).run = State.reset.run := rfl
@[simp] theorem State.resetBlock_nSkip : (s.resetBlock).nSkip = State.reset.nSkip := rfl
@[simp] theorem State.resetBlock_nCsum : (s.resetBlock).nCsum = State.reset.nCsum := rfl
@[simp] theorem State.resetBlock_nWeak : (s.resetBlock).nWeak = State.reset.nWeak := rfl
@[simp] theorem State.resetBlock_nSat : (s.resetBlock).nSat = State.reset.nSat := rfl
@[simp] theorem State.resetBlock_nIntf : (s.resetBlock).nIntf = State.reset.nIntf := rfl
@[simp] theorem State.resetBlock_store : (s.resetBlock).store = State.reset.store := rfl
@[simp] theorem State.resetBlock_snap : (s.resetBlock).snap = State.reset.snap := rfl
@[simp] theorem State.resetBlock_pos : (s.resetBlock).pos = State.reset.pos := rfl
@[simp] theorem State.resetBlock_frames : (s.resetBlock).frames = State.reset.frames := rfl
@[simp] theorem State.resetBlock_published : (s.resetBlock).published = State.reset.published := rfl
@[simp] theorem State.resetBlock_inputs : (s.resetBlock).inputs = s.inputs := rfl
@[simp] theorem State.resetBlock_beyond : (s.resetBlock).beyond = s.beyond := rfl
@[simp] theorem State.resetBlock_now : (s.resetBlock).now = s.now := rfl
@[simp] theorem State.resetBlock_out : (s.resetBlock).out = s.out := rfl

end Sys2Proof.Machine
end

