-- ==== Sys2Proof/Laws/Ops.lean ====
section
/-!
SUPPORT. One lemma for each shared operation that says everything it can do, for later proofs to cite
instead of unfolding it.
-/
namespace Sys2Proof.Machine

variable {s : State} {v : Byte} {f : Frame}

/-! ### The framer -/

theorem hunt0_header (h : v = 0x59#8) :
    s.hunt0 v = { s with win := s.win.set 0 v, fill := 1, pos := s.pos + 1, out := .label .hold :: s.out } := by
  simp [State.hunt0, h, Config.hdr0, State.emit]

theorem hunt0_noise (h : v ≠ 0x59#8) :
    s.hunt0 v = { s with nSkip := s.nSkip + 1#32, pos := s.pos + 1, out := .label (.skip 1) :: s.out } := by
  simp [State.hunt0, h, Config.hdr0, State.emit]

theorem hunt1_header (h : v = 0x59#8) :
    s.hunt1 v = { s with win := s.win.set 1 v, fill := 2, pos := s.pos + 1, out := .label .hold :: s.out } := by
  simp [State.hunt1, h, Config.hdr1, State.emit]

theorem hunt1_false_start (h : v ≠ 0x59#8) :
    s.hunt1 v =
      { s with fill := 0, nSkip := s.nSkip + 2#32, pos := s.pos + 1, out := .label (.skip 2) :: s.out } := by
  simp [State.hunt1, h, Config.hdr1, State.emit]

/-- Everything a stream byte can do (R118, R152): nothing once the loop has ended, else the one case of
its `fill`. -/
theorem consumeByte_cases (s : State) (v : Byte) :
    (s.run ≠ .run ∧ s.consumeByte v = s) ∨
    (s.run = .run ∧ s.fill = 0 ∧ s.consumeByte v = s.hunt0 v) ∨
    (s.run = .run ∧ s.fill = 1 ∧ s.consumeByte v = s.hunt1 v) ∨
    (s.run = .run ∧ s.fill = 8 ∧ s.consumeByte v = s.ninth v) ∨
    (s.run = .run ∧ 2 ≤ s.fill.val ∧ s.fill.val ≤ 7 ∧ s.consumeByte v = s.collect v) := by
  unfold State.consumeByte
  by_cases hr : s.run = .run
  · by_cases h0 : s.fill = 0
    · simp [hr, h0]
    · by_cases h1 : s.fill = 1
      · simp [hr, h1]
      · by_cases h8 : s.fill = 8
        · simp [hr, h8]
        · have : 2 ≤ s.fill.val ∧ s.fill.val ≤ 7 := by
            have := s.fill.isLt
            simp only [Fin.ext_iff, Fin.val_zero, Fin.val_one] at h0 h1 h8
            change s.fill.val ≠ 8 at h8
            omega
          simp [hr, h0, h1, h8, this.1, this.2]
  · simp [hr]

theorem consumeByte_stopped (h : s.run ≠ .run) : s.consumeByte v = s := by simp [State.consumeByte, h]

theorem consumeByte_hunt0 (hr : s.run = .run) (hf : s.fill = 0) : s.consumeByte v = s.hunt0 v := by
  simp [State.consumeByte, hr, hf]

theorem consumeByte_hunt1 (hr : s.run = .run) (hf : s.fill = 1) : s.consumeByte v = s.hunt1 v := by
  simp [State.consumeByte, hr, hf]

theorem consumeByte_ninth (hr : s.run = .run) (hf : s.fill = 8) : s.consumeByte v = s.ninth v := by
  simp [State.consumeByte, hr, hf]

theorem consumeByte_collect (hr : s.run = .run) (h2 : 2 ≤ s.fill.val) (h7 : s.fill.val ≤ 7) :
    s.consumeByte v = s.collect v := by
  rcases consumeByte_cases s v with ⟨h, _⟩ | ⟨_, h, _⟩ | ⟨_, h, _⟩ | ⟨_, h, _⟩ | ⟨_, _, _, h⟩
  · exact absurd hr h
  · simp [h] at h2
  · simp [h] at h2
  · simp [h] at h7
  · exact h

/-! ### The evaluation -/

/-- The five outcomes and what each says of the candidate frame (R130). -/
theorem evaluate_cases (w : Window) (v : Byte) :
    (evaluate w v = .rejCsum ∧ checksumOf w ≠ v) ∨
    (evaluate w v = .rejWeak ∧ checksumOf w = v ∧ (strengthOf w).toNat < 10) ∨
    (evaluate w v = .rejSat ∧ checksumOf w = v ∧ 10 ≤ (strengthOf w).toNat ∧
      (distanceOf w = 65534#16 ∨ distanceOf w = 65535#16)) ∨
    (evaluate w v = .rejIntf ∧ checksumOf w = v ∧ 10 ≤ (strengthOf w).toNat ∧ distanceOf w = 65532#16) ∨
    (evaluate w v = .accept ∧ checksumOf w = v ∧ 10 ≤ (strengthOf w).toNat ∧ distanceOf w ≠ 65532#16 ∧
      distanceOf w ≠ 65534#16 ∧ distanceOf w ≠ 65535#16) := by
  unfold evaluate
  simp only [Config.minStrength, Config.distSatA, Config.distSatB, Config.distIntf]
  by_cases h1 : checksumOf w = v
  · by_cases h2 : (strengthOf w).toNat < 10
    · simp [h1, h2]
    · have h2' := Nat.not_lt.mp h2
      by_cases h3 : distanceOf w = 65534#16 ∨ distanceOf w = 65535#16
      · simp only [h1, h2, h2', h3, ne_eq, not_true_eq_false, if_true, if_false]
        tauto
      · by_cases h4 : distanceOf w = 65532#16
        · simp [h1, h2, h2', h4]
        · simp only [h1, h2, h2', h3, h4, ne_eq, not_true_eq_false, if_false]
          tauto
  · simp [h1]

/-- Everything the ninth byte can do (R113, R142 to R146). -/
theorem ninth_cases (s : State) (v : Byte) :
    (evaluate s.win v = .accept ∧ s.ninth v = (s.takeNinth v).publishFrame (frameOf s.win v)) ∨
    (evaluate s.win v = .rejCsum ∧ s.ninth v = (s.takeNinth v).rejectCsum) ∨
    (evaluate s.win v = .rejWeak ∧ s.ninth v = (s.takeNinth v).rejectWeak) ∨
    (evaluate s.win v = .rejSat ∧ s.ninth v = (s.takeNinth v).rejectSat) ∨
    (evaluate s.win v = .rejIntf ∧ s.ninth v = (s.takeNinth v).rejectIntf) := by
  unfold State.ninth
  cases h : evaluate s.win v <;> simp [State.conclude]

/-! ### The window of a frame -/

/-- The evaluation reads the first eight bytes of the window only (R130). -/
theorem evaluate_set8 (w : Window) (v b : Byte) : evaluate (w.set 8 b) v = evaluate w v := by
  have hs : strengthOf (w.set 8 b) = strengthOf w := by simp [strengthOf]
  have hd : distanceOf (w.set 8 b) = distanceOf w := by simp [distanceOf]
  have hc : checksumOf (w.set 8 b) = checksumOf w := by simp [checksumOf, byteSum]
  simp only [evaluate, hs, hd, hc]

theorem toNat_littleEndian (lo hi : Byte) : (littleEndian lo hi).toNat = lo.toNat + hi.toNat * 256 := by
  have := lo.isLt
  have := hi.isLt
  simp only [littleEndian, BitVec.toNat_ofNat]
  omega

theorem toNat_lowByte (x : Half) : (lowByte x).toNat = x.toNat % 256 := by
  simp [lowByte]

theorem toNat_highByte (x : Half) : (highByte x).toNat = x.toNat / 256 := by
  have := x.isLt
  simp only [highByte, BitVec.extractLsb'_toNat, Nat.shiftRight_eq_div_pow]
  omega

theorem littleEndian_low_high (x : Half) : littleEndian (lowByte x) (highByte x) = x := by
  apply BitVec.eq_of_toNat_eq
  rw [toNat_littleEndian, toNat_lowByte, toNat_highByte]
  omega

theorem lowByte_littleEndian (lo hi : Byte) : lowByte (littleEndian lo hi) = lo := by
  have := lo.isLt
  apply BitVec.eq_of_toNat_eq
  rw [toNat_lowByte, toNat_littleEndian]
  omega

theorem highByte_littleEndian (lo hi : Byte) : highByte (littleEndian lo hi) = hi := by
  have := lo.isLt
  apply BitVec.eq_of_toNat_eq
  rw [toNat_highByte, toNat_littleEndian]
  omega

/-- Reading the fields back from the bytes of a frame (R80, R82). -/
theorem frameOf_frameWindow (f : Frame) : frameOf (frameWindow f) f.csum = f := by
  simp [frameOf, frameWindow, distanceOf, strengthOf, rawTempOf, littleEndian_low_high]

/-- The checksum, from the fields (R83): the header contributes 0xB2. -/
theorem byteSum_frameWindow (f : Frame) :
    byteSum (frameWindow f) = 0xB2 + (lowByte f.dist).toNat + (highByte f.dist).toNat + (lowByte f.str).toNat +
      (highByte f.str).toNat + (lowByte f.raw).toNat + (highByte f.raw).toNat := by
  simp [byteSum, frameWindow, Config.hdr0, Config.hdr1]

/-- A window that awaits the ninth byte of `f` evaluates as `f` does. -/
theorem evaluate_of_awaits (h : s.awaitsNinthOf f = true) :
    s.run = .run ∧ s.fill = 8 ∧ frameOf s.win f.csum = f ∧ evaluate s.win f.csum = frameOutcome f := by
  simp only [State.awaitsNinthOf, decide_eq_true_eq] at h
  obtain ⟨hr, hf, h0, h1, hw⟩ := h
  refine ⟨hr, hf, hw, ?_⟩
  have hd : distanceOf s.win = f.dist := congrArg Frame.dist hw
  have hs : strengthOf s.win = f.str := congrArg Frame.str hw
  have ht : rawTempOf s.win = f.raw := congrArg Frame.raw hw
  have e : ∀ g : Frame, distanceOf (frameWindow g) = g.dist ∧ strengthOf (frameWindow g) = g.str := fun g =>
    ⟨congrArg Frame.dist (frameOf_frameWindow g), congrArg Frame.str (frameOf_frameWindow g)⟩
  have hb : byteSum s.win = byteSum (frameWindow f) := by
    rw [byteSum_frameWindow, ← hd, ← hs, ← ht]
    simp [byteSum, distanceOf, strengthOf, rawTempOf, lowByte_littleEndian, highByte_littleEndian, h0, h1,
      Config.hdr0, Config.hdr1]
  simp only [frameOutcome, evaluate, checksumOf, hb, hd, hs, (e f).1, (e f).2]

/-! ### Termination -/

theorem terminate_stopped (c : Terminal) (h : s.run ≠ .run) : s.terminate c = s := by
  simp [State.terminate, h]

theorem terminate_streamClosed (h : s.run = .run) :
    s.terminate .streamClosed = { s with run := .closed, out := .label .closed :: s.out } := by
  simp [State.terminate, h, State.emit]

theorem terminate_transportFault (h : s.run = .run) :
    s.terminate .transportFault = { s with run := .fatal, out := .label .fatal :: s.out } := by
  simp [State.terminate, h, State.emit]

/-! ### The inputs -/

@[simp] theorem fetch_nil (h : s.inputs = []) (hb : s.beyond = none) : s.fetch = none := by
  simp [State.fetch, State.nextSlot, h, hb]

@[simp] theorem fetch_cons {slot : Slot} {rest : List Slot} (h : s.inputs = slot :: rest) :
    s.fetch = some (decodeEvent slot.event, { s with inputs := rest, now := slot.now }) := by
  simp [State.fetch, State.nextSlot, h]

/-- The endless sequence: as if its next slot stood in the listing. -/
@[simp] theorem fetch_beyond {n : Nat} (h : s.inputs = []) (hb : s.beyond = some n) :
    s.fetch = some (decodeEvent (Config.freeSlot n).event,
      { s with beyond := some (n + 1), now := (Config.freeSlot n).now }) := by
  simp [State.fetch, State.nextSlot, h, hb]

end Sys2Proof.Machine
end

