-- ==== Sys2Proof/Laws/Encode.lean ====
section
/-!
SUPPORT. The words of the encoder as numbers: a concatenation is a sum of shifted parts.
-/
namespace Sys2Proof

theorem toNat_append_mul {m n : Nat} (x : BitVec m) (y : BitVec n) :
    (x ++ y).toNat = x.toNat * 2 ^ n + y.toNat := by
  rw [BitVec.toNat_append, ← Nat.shiftLeft_add_eq_or_of_lt y.isLt, Nat.shiftLeft_eq]

theorem and_shiftLeft_eq (n m k : Nat) : n &&& (m <<< k) = ((n >>> k) &&& m) <<< k := by
  apply Nat.eq_of_testBit_eq
  intro i
  by_cases h : k ≤ i
  · simp [Nat.testBit_shiftLeft, Nat.testBit_shiftRight, h]
  · simp [Nat.testBit_shiftLeft, h]

/-- The symbol of a byte is the byte (R86: `err = 0, eos = 0`). -/
theorem toNat_byteSymbol (v : Byte) : (byteSymbol v).toNat = v.toNat :=
  (toNat_append_mul 0#2 v).trans (by simp)

/-- The command that reads word `k` is `k` (R88: `cap = 0`). -/
theorem toNat_readCommand (k : BitVec 4) : (readCommand k).toNat = k.toNat :=
  (toNat_append_mul 0#1 k).trans (by simp)

/-- A frame word as the sum of its bytes at their places (R81). -/
theorem toNat_frameWord (f : Frame) :
    (frameWord f).toNat = 0x59 * 2 ^ 64 + 0x59 * 2 ^ 56 + (Machine.lowByte f.dist).toNat * 2 ^ 48 +
      (Machine.highByte f.dist).toNat * 2 ^ 40 + (Machine.lowByte f.str).toNat * 2 ^ 32 +
      (Machine.highByte f.str).toNat * 2 ^ 24 + (Machine.lowByte f.raw).toNat * 2 ^ 16 +
      (Machine.highByte f.raw).toNat * 2 ^ 8 + f.csum.toNat := by
  simp only [frameWord, toNat_append_mul, Config.hdr0, Config.hdr1, BitVec.toNat_ofNat]
  omega

end Sys2Proof
end

