-- ==== Sys2Proof/Laws/PerInstr.lean ====
section
/-!
SUPPORT. For every operation: its encoder's word fits the table's width and matches the table's mask and
match (spec/opcode_table.json).
-/
namespace Sys2Proof.Laws.Encoding

/-- The word of a well-formed operation fits its row's width and meets its row's mask and match. -/
def Statement (i : Instr) : Prop :=
  i.wellFormed = true → (encode i).bits < 2 ^ rowWidth i ∧ (encode i).bits &&& rowMask i = rowMatch i

theorem byteSymbol_row (v : Byte) : (byteSymbol v).toNat < 2 ^ 10 ∧ (byteSymbol v).toNat &&& 0x300 = 0x000 := by
  have h := v.isLt
  rw [toNat_byteSymbol, show 0x300 = 3 <<< 8 from rfl, and_shiftLeft_eq, Nat.shiftRight_eq_div_pow,
    Nat.div_eq_of_lt h]
  exact ⟨by omega, by simp⟩

theorem readCommand_snap (k : BitVec 4) (h : k.toNat < 8) :
    (readCommand k).toNat < 2 ^ 5 ∧ (readCommand k).toNat &&& 0x18 = 0x00 := by
  revert k
  decide

theorem readCommand_stat (k : BitVec 4) (h : 8 ≤ k.toNat) :
    (readCommand k).toNat < 2 ^ 5 ∧ (readCommand k).toNat &&& 0x18 = 0x08 := by
  revert k
  decide

/-- The header bits of a frame word, whatever the other 56 bits are (R81). -/
theorem frameWord_row (f : Frame) :
    (frameWord f).toNat < 2 ^ 72 ∧ (frameWord f).toNat &&& 0xFFFF00000000000000 = 0x595900000000000000 := by
  refine ⟨(frameWord f).isLt, ?_⟩
  have h : (frameWord f).toNat >>> 56 = 0x5959 := by
    have := f.csum.isLt
    have := (Machine.lowByte f.dist).isLt
    have := (Machine.lowByte f.str).isLt
    have := (Machine.lowByte f.raw).isLt
    have := (Machine.highByte f.dist).isLt
    have := (Machine.highByte f.str).isLt
    have := (Machine.highByte f.raw).isLt
    rw [Nat.shiftRight_eq_div_pow, toNat_frameWord]
    omega
  rw [show 0xFFFF00000000000000 = 0xFFFF <<< 56 from rfl, and_shiftLeft_eq, h]
  rfl

theorem byte (v : Byte) : Statement (.byte v) := fun _ => byteSymbol_row v
theorem byteHunt0 (v : Byte) : Statement (.byteHunt0 v) := fun _ => byteSymbol_row v
theorem byteHunt1 (v : Byte) : Statement (.byteHunt1 v) := fun _ => byteSymbol_row v
theorem byteCollect (v : Byte) : Statement (.byteCollect v) := fun _ => byteSymbol_row v
theorem byteNinth (v : Byte) : Statement (.byteNinth v) := fun _ => byteSymbol_row v
theorem eos : Statement .eos := fun _ => by decide
theorem fault : Statement .fault := fun _ => by decide
theorem accept (f : Frame) : Statement (.accept f) := fun _ => frameWord_row f
theorem rejCsum (f : Frame) : Statement (.rejCsum f) := fun _ => frameWord_row f
theorem rejWeak (f : Frame) : Statement (.rejWeak f) := fun _ => frameWord_row f
theorem rejSat (f : Frame) : Statement (.rejSat f) := fun _ => frameWord_row f
theorem rejIntf (f : Frame) : Statement (.rejIntf f) := fun _ => frameWord_row f
theorem capture (r : PortId) : Statement (.capture r) := fun _ => by
  simp only [encode, rowWidth, rowMask, rowMatch]
  decide
theorem rdsnap (r : PortId) (k : BitVec 4) : Statement (.rdsnap r k) := fun h =>
  readCommand_snap k (by simpa [Instr.wellFormed] using h)
theorem rdstat (r : PortId) (k : BitVec 4) : Statement (.rdstat r k) := fun h =>
  readCommand_stat k (by simpa [Instr.wellFormed] using h)
theorem reset : Statement .reset := fun _ => by decide

end Sys2Proof.Laws.Encoding
end

