-- ==== Sys2Proof/Tests/Slice0.lean ====
section
/-!
SUPPORT. The model's own tests: words and results of spec/95_test_vectors.md (each named by its id there),
ill-formed terms that the check refuses, and for every statement with hypotheses a state and operands that
meet them.
-/
namespace Sys2Proof.Tests

open Sys2Proof Sys2Proof.Machine Sys2Proof.Claims

/-! ### Helpers -/

/-- The next state of an outcome. -/
def nextOf : Host.Outcome State Fault Refusal → Option State
  | .next t => some t
  | .fault _ => none
  | .refused _ => none

/-- A field of the next state. -/
def seen {α : Type} (o : Host.Outcome State Fault Refusal) (f : State → α) : Option α := (nextOf o).map f

/-- Reset, with the first `n` bytes of a window held and `now` = 1. -/
def held (w : Window) (n : Fin 9) : State := { State.reset with win := w, fill := n, now := 1#64 }

/-- The first eight bytes of `FRAME d, 50, 2176` for `d` of low byte `lo` and high byte `hi`. -/
def strong (lo hi : Byte) : State := held #v[0x59, 0x59, lo, hi, 0x32, 0x00, 0x80, 0x08, 0x00] 8

/-- The first eight bytes of `FRAME d, s, 2176` for a strength of low byte `s`. -/
def faint (lo hi s : Byte) : State := held #v[0x59, 0x59, lo, hi, s, 0x00, 0x80, 0x08, 0x00] 8

/-- The store with its generation after S1c. -/
def s1cRecord : Record := ⟨true, 100#16, 50#16, 0x41800000#32, 7#64, 1#32⟩

/-- The state after S1c and a capture on both ports, a byte 0x59 offered next. -/
def afterS1c : State :=
  { State.reset with
    win := #v[0x59, 0x59, 0x64, 0x00, 0x32, 0x00, 0x80, 0x08, 0xD0], store := s1cRecord
    snap := Vector.replicate 2 s1cRecord, pos := 9, frames := 1, published := [s1cRecord]
    inputs := [⟨8#64, .stream 0x059#10⟩] }

/-- The state after F1. -/
def afterF1 : State := { State.reset with nSkip := 1, pos := 1, out := [.label (.skip 1)] }

/-- The start state of X1. -/
def x1 : State :=
  { State.reset with
    fill := 5, run := .fatal, nSkip := 3, nCsum := 2, nWeak := 1, nSat := 1, nIntf := 1
    store := ⟨true, 100, 50, 0x41800000, 7, 9⟩
    snap := #v[⟨true, 100, 50, 0x41800000, 7, 9⟩, Record.unset] }

/-- The records of `n` publishes of the frame of S1c at the time 7, newest first. -/
def manyRecords : Nat → List Record
  | 0 => []
  | n + 1 => { s1cRecord with gen := BitVec.ofNat 32 (n + 1) } :: manyRecords n

/-- The state after `n` publishes of the frame of S1c. -/
def manyPublished (n : Nat) : State :=
  { State.reset with
    published := manyRecords n, store := (manyRecords n).head?.getD Record.unset, pos := 9 * n, frames := n }

/-- `s` with a byte listing offered at the time `t`. -/
def offered (s : State) (t : BitVec 64) (bs : List Byte) : State :=
  { s with inputs := byteSlots (bs.map fun b => (t, b)) }

/-! ### Well-formedness -/

theorem test_wellFormed_refuses_rdsnap_high_word : (Instr.rdsnap 0 8#4).wellFormed = false := by decide
theorem test_wellFormed_refuses_rdstat_low_word : (Instr.rdstat 0 7#4).wellFormed = false := by decide
theorem test_wellFormed_refuses_accept_of_bad_checksum :
    (Instr.accept ⟨100#16, 50#16, 2176#16, 0xE3#8⟩).wellFormed = false := by decide
theorem test_wellFormed_refuses_rejCsum_of_good_checksum :
    (Instr.rejCsum ⟨100#16, 50#16, 2176#16, 0xD0#8⟩).wellFormed = false := by decide
theorem test_wellFormed_refuses_rejWeak_of_strength_ten :
    (Instr.rejWeak ⟨100#16, 10#16, 2176#16, 0xA8#8⟩).wellFormed = false := by decide
theorem test_wellFormed_refuses_rejSat_of_weak_frame :
    (Instr.rejSat ⟨65535#16, 3#16, 2176#16, 0x3B#8⟩).wellFormed = false := by decide
theorem test_wellFormed_refuses_rejIntf_of_65533 :
    (Instr.rejIntf ⟨65533#16, 50#16, 2176#16, 0x68#8⟩).wellFormed = false := by decide
theorem test_wellFormed_takes_boundary_words :
    (Instr.rdsnap 1 7#4).wellFormed = true ∧ (Instr.rdstat 1 8#4).wellFormed = true := by decide

/-! ### Decoding: words written out from spec/30_encoding.md, ids of 95_test_vectors.md -/

theorem test_decode_byte_words :
    decodeSymbol 0b0001011001#10 = .byte 0x59#8 ∧ decodeSymbol 0b0011111111#10 = .byte 0xFF#8 ∧
    decodeSymbol 0b0000000000#10 = .byte 0x00#8 := by decide
theorem test_decode_eos_words :
    decodeSymbol 0b0100000000#10 = .eos ∧ decodeSymbol 0b0110101011#10 = .eos := by decide
theorem test_decode_fault_words :
    decodeSymbol 0b1000000000#10 = .fault ∧ decodeSymbol 0b1100000000#10 = .fault ∧
    decodeSymbol 0b1111111111#10 = .fault := by decide
theorem test_decode_capture_words :
    decodeCommand 0 0b10000#5 = .capture 0 ∧ decodeCommand 1 0b11111#5 = .capture 1 := by decide
theorem test_decode_rdsnap_words :
    decodeCommand 0 0b00000#5 = .rdsnap 0 0#4 ∧ decodeCommand 1 0b00111#5 = .rdsnap 1 7#4 := by decide
theorem test_decode_rdstat_words :
    decodeCommand 0 0b01000#5 = .rdstat 0 8#4 ∧ decodeCommand 1 0b01111#5 = .rdstat 1 15#4 := by decide
theorem test_decode_reset_word : decodeTableWord 1 0b1 = some .reset := by decide
/-- The table's rows of `BYTE.hunt0`, `BYTE.hunt1`, `BYTE.collect`, `BYTE.ninth` are words of `BYTE`; the
decode map of R91 gives the case. -/
theorem test_decode_map_of_byte :
    byteCase 0 0x59#8 = .byteHunt0 0x59#8 ∧ byteCase 1 0x59#8 = .byteHunt1 0x59#8 ∧
    byteCase 2 0x59#8 = .byteCollect 0x59#8 ∧ byteCase 7 0x59#8 = .byteCollect 0x59#8 ∧
    byteCase 8 0x59#8 = .byteNinth 0x59#8 := by decide
/-- S1c. -/
theorem test_decode_accept_word :
    decodeTableWord 72 0x5959640032008008D0 = some (.accept ⟨100#16, 50#16, 2176#16, 0xD0#8⟩) := by decide
/-- S1. -/
theorem test_decode_rejCsum_word :
    decodeTableWord 72 0x5959640032008008E3 = some (.rejCsum ⟨100#16, 50#16, 2176#16, 0xE3#8⟩) := by decide
/-- V3. -/
theorem test_decode_rejWeak_word :
    decodeTableWord 72 0x5959640009008008A7 = some (.rejWeak ⟨100#16, 9#16, 2176#16, 0xA7#8⟩) := by decide
/-- V11. -/
theorem test_decode_rejSat_word :
    decodeTableWord 72 0x5959FFFF320080086A = some (.rejSat ⟨65535#16, 50#16, 2176#16, 0x6A#8⟩) := by decide
/-- V8. -/
theorem test_decode_rejIntf_word :
    decodeTableWord 72 0x5959FCFF3200800867 = some (.rejIntf ⟨65532#16, 50#16, 2176#16, 0x67#8⟩) := by decide
/-- What is no word of a port is rejected by name. -/
theorem test_decode_rejections :
    decode ⟨.stream, 0x400⟩ = .error .notASymbol ∧ decode ⟨.reader 0, 0x20⟩ = .error .notACommand ∧
    decode ⟨.reader 2, 0x10⟩ = .error .noSuchPort ∧ decode ⟨.frame, 2 ^ 72⟩ = .error .notAFrame ∧
    decode ⟨.frame, 0x5859640032008008D0⟩ = .error .noHeader ∧
    decode ⟨.frame, 0x5958640032008008D0⟩ = .error .noHeader ∧
    decode ⟨.host, 0⟩ = .error .noReset := ⟨rfl, rfl, rfl, rfl, rfl, rfl, rfl⟩
/-- The pseudo-operations of R102: V5 and V20. -/
theorem test_frame_pseudo_operations :
    frameBytes 100#16 256#16 2176#16 = [0x59, 0x59, 0x64, 0x00, 0x00, 0x01, 0x80, 0x08, 0x9F] ∧
    framexBytes 101#16 50#16 2176#16 0xD0#8 = [0x59, 0x59, 0x65, 0x00, 0x32, 0x00, 0x80, 0x08, 0xD0] := by
  decide

/-! ### One step each -/

/-- F1 and F2. -/
theorem test_byteHunt0_noise :
    seen (exec (.byteHunt0 0x12#8) State.reset) (fun t => (t.fill, t.nSkip, t.out)) =
      some (0, 1#32, [.label (.skip 1)]) := by decide
theorem test_byteHunt0_first_header_byte :
    seen (exec (.byteHunt0 0x59#8) State.reset) (fun t => (t.fill, t.nSkip, t.win[0], t.out)) =
      some (1, 0#32, 0x59#8, [.label .hold]) := by decide
/-- F4, and W1: 2 added across the wrap. -/
theorem test_byteHunt1_header :
    seen (exec (.byteHunt1 0x59#8) (held #v[0x59, 0, 0, 0, 0, 0, 0, 0, 0] 1)) (fun t => (t.fill, t.win[1])) =
      some (2, 0x59#8) := by decide
theorem test_byteHunt1_wraps :
    seen (exec (.byteHunt1 0x00#8) { held #v[0x59, 0, 0, 0, 0, 0, 0, 0, 0] 1 with nSkip := 0xFFFFFFFF#32 })
      (fun t => (t.fill, t.nSkip)) = some (0, 1#32) := by decide
/-- F5, and the last byte of F8. -/
theorem test_byteCollect_third_59 :
    seen (exec (.byteCollect 0x59#8) (held #v[0x59, 0x59, 0, 0, 0, 0, 0, 0, 0] 2))
      (fun t => (t.fill, t.win[2], t.nSkip)) = some (3, 0x59#8, 0#32) := by decide
theorem test_byteCollect_eighth :
    seen (exec (.byteCollect 0x59#8) (held #v[0x59, 0x59, 0x59, 0x59, 0x59, 0x59, 0x59, 0, 0] 7))
      (fun t => (t.fill, t.win[7])) = some (8, 0x59#8) := by decide
/-- F9 and F10. -/
theorem test_byteNinth_all_59_accepted :
    seen (exec (.byteNinth 0xC8#8) (held #v[0x59, 0x59, 0x59, 0x59, 0x59, 0x59, 0x59, 0x59, 0] 8))
      (fun t => (t.fill, t.store)) = some (0, ⟨true, 22873, 22873, 0x4522B200, 1, 1⟩) := by decide
theorem test_byteNinth_nine_59_rejected :
    seen (exec (.byteNinth 0x59#8) (held #v[0x59, 0x59, 0x59, 0x59, 0x59, 0x59, 0x59, 0x59, 0] 8))
      (fun t => (t.fill, t.nCsum, t.store)) = some (0, 1#32, Record.unset) := by decide
/-- W3, and V21 through the plain symbol. -/
theorem test_byte_noise_wraps :
    seen (exec (.byte 0x00#8) { State.reset with nSkip := 0xFFFFFFFF#32 }) (fun t => t.nSkip) = some 0#32 := by
  decide
theorem test_byte_compensating_corruption_accepted :
    seen (exec (.byte 0xD0#8) (held #v[0x59, 0x59, 0x65, 0x00, 0x31, 0x00, 0x80, 0x08, 0x00] 8))
      (fun t => t.store) = some ⟨true, 101, 49, 0x41800000, 1, 1⟩ := by decide
/-- V2, and W4: generation 0 with a valid record. -/
theorem test_accept_highest_values :
    seen (exec (.accept ⟨65533#16, 65535#16, 65535#16, 0xAA#8⟩)
      (held #v[0x59, 0x59, 0xFD, 0xFF, 0xFF, 0xFF, 0xFF, 0xFF, 0x00] 8)) (fun t => (t.store, t.out)) =
      some (⟨true, 65533, 65535, 0x45F7FF00, 1, 1⟩, [.label .accept]) := by decide
theorem test_accept_generation_wraps :
    seen (exec (.accept ⟨100#16, 50#16, 2176#16, 0xD0#8⟩)
      { strong 0x64 0x00 with store := ⟨true, 0, 10, 0, 0, 0xFFFFFFFF⟩, now := 9#64 }) (fun t => t.store) =
      some ⟨true, 100, 50, 0x41800000, 9, 0⟩ := by decide
/-- V18: checksum before the filter; W5. -/
theorem test_rejCsum_before_filter :
    seen (exec (.rejCsum ⟨65535#16, 3#16, 2176#16, 0x00#8⟩) (faint 0xFF 0xFF 0x03))
      (fun t => (t.nCsum, t.nWeak, t.nSat, t.store)) = some (1#32, 0#32, 0#32, Record.unset) := by decide
theorem test_rejCsum_wraps :
    seen (exec (.rejCsum ⟨100#16, 50#16, 2176#16, 0xE3#8⟩) { strong 0x64 0x00 with nCsum := 0xFFFFFFFF#32 })
      (fun t => t.nCsum) = some 0#32 := by decide
/-- V3 and V12: weak before saturated. -/
theorem test_rejWeak_nine :
    seen (exec (.rejWeak ⟨100#16, 9#16, 2176#16, 0xA7#8⟩) (faint 0x64 0x00 0x09))
      (fun t => (t.nWeak, t.store.gen, t.out)) = some (1#32, 0#32, [.label .rejWeak]) := by decide
theorem test_rejWeak_before_saturated :
    seen (exec (.rejWeak ⟨65535#16, 3#16, 2176#16, 0x3B#8⟩) (faint 0xFF 0xFF 0x03))
      (fun t => (t.nWeak, t.nSat)) = some (1#32, 0#32) := by decide
/-- V10 and V11. -/
theorem test_rejSat_65534 :
    seen (exec (.rejSat ⟨65534#16, 50#16, 2176#16, 0x69#8⟩) (strong 0xFE 0xFF)) (fun t => (t.nSat, t.nIntf)) =
      some (1#32, 0#32) := by decide
theorem test_rejSat_65535 :
    seen (exec (.rejSat ⟨65535#16, 50#16, 2176#16, 0x6A#8⟩) (strong 0xFF 0xFF)) (fun t => (t.nSat, t.out)) =
      some (1#32, [.label .rejSat]) := by decide
/-- V8. -/
theorem test_rejIntf_65532 :
    seen (exec (.rejIntf ⟨65532#16, 50#16, 2176#16, 0x67#8⟩) (strong 0xFC 0xFF))
      (fun t => (t.nIntf, t.nSat, t.fill)) = some (1#32, 0#32, 0) := by decide
/-- E1: `fill` is frozen and visible in `STATUS`; the later `EOS` and `FAULT` change nothing. -/
theorem test_eos_closes :
    seen (exec .eos (held #v[0x59, 0x59, 0x64, 0x00, 0x32, 0, 0, 0, 0] 5))
      (fun t => (t.closedSignal, t.fatalSignal, t.inReady, t.regRead 0 8#4)) =
      some (true, false, false, 0x51#32) := by decide
theorem test_fault_after_close_not_consumed :
    seen (exec .fault { State.reset with run := .closed }) (fun t => (t.run, t.out)) = some (.closed, []) := by
  decide
/-- E2. -/
theorem test_fault_first :
    seen (exec .fault State.reset) (fun t => (t.fatalSignal, t.regRead 0 8#4, t.out)) =
      some (true, 2#32, [.label .fatal]) := by decide
/-- Rd2 cont.: each reader has its own register. -/
theorem test_capture_own_register :
    seen (exec (.capture 0) { State.reset with store := s1cRecord })
      (fun t => (t.snap[0], t.snap[1], t.regRead 0 0#4, t.regRead 0 2#4)) =
      some (s1cRecord, Record.unset, 0x00320064#32, 7#32) := by decide
/-- Rd3 cont.: words 0, 2 and 3 of port 1. -/
theorem test_rdsnap_words :
    (List.map (fun k => seen (exec (.rdsnap 1 k)
      { State.reset with snap := #v[Record.unset, ⟨true, 250, 300, 0x42700000, 0x123456789, 2⟩] })
      (fun t => t.out)) [0#4, 2#4, 3#4]) =
    [some [.read 1 0 0x012C00FA], some [.read 1 2 0x23456789], some [.read 1 3 0x00000001]] := by decide
/-- P4: `STATUS` and `n_skip`. -/
theorem test_rdstat_words :
    (List.map (fun k => seen (exec (.rdstat 0 k)
      { State.reset with fill := 3, run := .closed, nSkip := 4#32, store := s1cRecord })
      (fun t => t.out)) [8#4, 10#4, 15#4]) =
    [some [.read 0 8 0x35], some [.read 0 10 4], some [.read 0 15 0]] := by decide
/-- X1: the reset state, whatever came before. -/
theorem test_reset_clears : nextOf (exec .reset x1) = some State.reset := by decide
/-- Section 2.5, the rows that show sign, fraction and zero. -/
theorem test_temperature_below_zero :
    (tempPattern 0#16, tempPattern 1#16, tempPattern 2040#16, tempPattern 2047#16) =
      (0xC3800000#32, 0xC37FE000#32, 0xBF800000#32, 0xBE000000#32) := by decide
theorem test_temperature_from_zero :
    (tempPattern 2048#16, tempPattern 2049#16, tempPattern 2177#16, tempPattern 65535#16) =
      (0x00000000#32, 0x3E000000#32, 0x41810000#32, 0x45F7FF00#32) := by decide
/-- The step runs the word placed for the fetch: a symbol, a command, `rst`, the ninth byte of a frame. -/
theorem test_step_runs_placed_words :
    seen (step (State.reset.withFetchWord 16 0x059)) (fun t => t.fill) = some 1 ∧
    seen (step (State.reset.withFetchWord 8 0x08)) (fun t => t.out) = some [.read 0 8 0] ∧
    seen (step (x1.withFetchWord 8 0x01)) (fun t => t.run) = some .run ∧
    seen (step (State.reset.withFetchWord 72 0x5959640032008008D0)) (fun t => t.store) =
      some ⟨true, 100, 50, 0x41800000, 0, 1⟩ := by decide

/-! ### Witnesses: the hypotheses of the statements can be met

Each theorem is named after its statement. -/

/-- The invariant holds of a state with a record published and captured (for `StepKeepsInvariant`,
`InvariantBoundsRecords`, `ByteCountIdentity`, `EqualGenerationsSameRecord`). -/
theorem test_afterS1c_inv : afterS1c.Inv where
  header0 := by decide
  header1 := by decide
  history := by
    refine ⟨rfl, ⟨by decide, fun _ => ⟨by decide, by decide, by decide, by decide, 2176#16, by decide⟩⟩, rfl,
      trivial⟩
  storeIsLast := rfl
  snapsPublished := by decide
  bytesCounted := by decide
  bytesBound := by decide
  framesCounted := by decide

/-- The invariant holds of a state with nothing published. -/
theorem test_afterF1_inv : afterF1.Inv where
  header0 := by decide
  header1 := by decide
  history := trivial
  storeIsLast := rfl
  snapsPublished := by decide
  bytesCounted := by decide
  bytesBound := by decide
  framesCounted := by decide

theorem test_witness_StepKeepsInvariant :
    ∃ s t : State, s.Inv ∧ step s = .next t ∧ t.fill = 1 ∧ t.published = [s1cRecord] :=
  ⟨_, _, test_afterS1c_inv, rfl, by decide, rfl⟩

theorem test_witness_InvariantBoundsRecords :
    afterS1c.Inv ∧ afterS1c.store.valid = true ∧ afterS1c.snap[1].valid = true :=
  ⟨test_afterS1c_inv, by decide, by decide⟩

/-- The two clauses: after a publish, and before any. -/
theorem test_witness_CaptureSeesLastPublish :
    (afterS1c.Inv ∧ afterS1c.published = s1cRecord :: []) ∧ (afterF1.Inv ∧ afterF1.published = []) :=
  ⟨⟨test_afterS1c_inv, rfl⟩, test_afterF1_inv, rfl⟩

theorem test_witness_ReadReturnsStoredRecord :
    State.reset.store.valid = false ∧ afterS1c.store.valid = true := by decide

theorem test_witness_ByteCountIdentity : afterS1c.Inv ∧ afterS1c.pos < 2 ^ 32 :=
  ⟨test_afterS1c_inv, by decide⟩

/-- Two snapshots of one publish, and the store's place. -/
theorem test_witness_EqualGenerationsSameRecord :
    afterS1c.Inv ∧ afterS1c.published[0]? = some s1cRecord ∧ afterS1c.snap[0].valid = true ∧
      afterS1c.store.valid = true ∧ afterS1c.published[0]? = some afterS1c.snap[0] ∧
      afterS1c.published[0]? = some afterS1c.snap[1] ∧ afterS1c.snap[0].gen = afterS1c.snap[1].gen ∧
      afterS1c.snap[0].gen = afterS1c.store.gen :=
  ⟨test_afterS1c_inv, rfl, by decide, by decide, by decide, by decide, by decide, by decide⟩

theorem test_manyRecords_length (n : Nat) : (manyRecords n).length = n := by
  induction n with
  | zero => rfl
  | succ n ih => simp [manyRecords, ih]

theorem test_manyRecords_numbered (n : Nat) : Numbered (manyRecords n) := by
  induction n with
  | zero => trivial
  | succ n ih =>
    have h : s1cRecord.Ok := test_afterS1c_inv.history.2.1
    exact ⟨rfl, ⟨fun e => Bool.noConfusion e, h.2⟩, by rw [test_manyRecords_length], ih⟩

theorem test_manyPublished_framesCounted (n : Nat) : (manyPublished n).framesCounted = BitVec.ofNat 32 n := by
  cases n <;> simp [State.framesCounted, manyPublished, manyRecords, State.reset, Record.unset]

theorem test_manyPublished_inv (n : Nat) : (manyPublished n).Inv where
  header0 := by simp [manyPublished, State.reset]
  header1 := by simp [manyPublished, State.reset]
  history := test_manyRecords_numbered n
  storeIsLast := rfl
  snapsPublished r := .inl (by simp [manyPublished, State.reset])
  bytesCounted := by
    rw [test_manyPublished_framesCounted]
    simp [manyPublished, State.reset, BitVec.ofNat_mul]
  bytesBound := by
    have h : (manyPublished n).framesCountedNat ≤ n := by
      cases n with
      | zero => simp [State.framesCountedNat, manyPublished, manyRecords, State.reset, Record.unset]
      | succ n =>
        simp [State.framesCountedNat, manyPublished, manyRecords, State.reset]
        omega
    simp [manyPublished, State.reset] at h ⊢
    omega
  framesCounted := by rw [test_manyPublished_framesCounted]; rfl

/-- The other side of the bound: two publishes exactly 2^32 apart exist in a state with the invariant. -/
theorem test_witness_EqualGenerationsSameRecord_wrap :
    ∃ (s : State) (x y : Record), s.Inv ∧ s.published[0]? = some x ∧ s.published[0 + 2 ^ 32]? = some y := by
  refine ⟨manyPublished (2 ^ 32 + 1), _, _, test_manyPublished_inv _,
    List.getElem?_eq_getElem ?_, List.getElem?_eq_getElem ?_⟩ <;>
  · show _ < (manyRecords (2 ^ 32 + 1)).length
    rw [test_manyRecords_length]
    omega

theorem test_witness_HuntFirstByte :
    State.reset.run = .run ∧ State.reset.fill = 0 ∧
      (Instr.byteHunt0 0x59#8 = .byteHunt0 0x59#8 ∨ Instr.byteHunt0 0x59#8 = .byte 0x59#8) := by decide

theorem test_witness_HuntSecondByte :
    (held #v[0x59, 0, 0, 0, 0, 0, 0, 0, 0] 1).run = .run ∧
      (held #v[0x59, 0, 0, 0, 0, 0, 0, 0, 0] 1).fill = 1 ∧
      (Instr.byte 0x58#8 = .byteHunt1 0x58#8 ∨ Instr.byte 0x58#8 = .byte 0x58#8) := by decide

/-- At both ends of the range of `fill`. -/
theorem test_witness_CollectPayloadByte :
    ∀ m ∈ [(2 : Fin 9), 7], ∃ n : Fin 9, (held (Vector.replicate 9 0x59) m).run = .run ∧
      2 ≤ (held (Vector.replicate 9 0x59) m).fill.val ∧ (held (Vector.replicate 9 0x59) m).fill.val ≤ 7 ∧
      n.val = (held (Vector.replicate 9 0x59) m).fill.val + 1 := by decide

/-- Every value of `fill`, with the value the table of R116 gives for a 0x59 and for a 0x00. -/
theorem test_witness_FillFollowsTransitionTable :
    (∀ m : Fin 9, (held (Vector.replicate 9 0x59) m).run = .run) ∧
    (List.finRange 9).map (fun m => seen (exec (.byte 0x59#8) (held (Vector.replicate 9 0x59) m)) (fun t => t.fill)) =
      [some 1, some 2, some 3, some 4, some 5, some 6, some 7, some 8, some 0] ∧
    (List.finRange 9).map (fun m => seen (exec (.byte 0x00#8) (held (Vector.replicate 9 0x59) m)) (fun t => t.fill)) =
      [some 0, some 0, some 3, some 4, some 5, some 6, some 7, some 8, some 0] := by decide

theorem test_witness_HeaderOpensNineByteWindow :
    ∃ (s : State) (bs : List (BitVec 64 × Byte)) (rest : List Slot), s.run = .run ∧ s.fill = 0 ∧
      bs.length = 9 ∧ (bs.map Prod.snd).take 2 = [0x59#8, 0x59#8] ∧ s.inputs = byteSlots bs ++ rest :=
  ⟨offered State.reset 7#64 [0x59, 0x59, 0x01, 0x02, 0x59, 0x59, 0x64, 0x00, 0x32],
    [0x59, 0x59, 0x01, 0x02, 0x59, 0x59, 0x64, 0x00, 0x32].map (fun b => (7#64, b)), [],
    rfl, rfl, rfl, rfl, rfl⟩

/-- F6, and no byte at all before the header. -/
theorem test_witness_EarliestHeaderFound :
    (∃ s : State, s.run = .run ∧ s.fill = 0 ∧ NoHeaderIn ([0x59#8, 0x00#8] ++ [0x59#8]) ∧
      s.inputs = byteSlots ([(0, 0x59#8), (0, 0x00#8)] ++ [(0, 0x59#8), (0, 0x59#8)]) ++ []) ∧
    NoHeaderIn ([] ++ [0x59#8]) := by
  refine ⟨⟨offered State.reset 0#64 [0x59, 0x00, 0x59, 0x59], rfl, rfl, fun k => ?_, rfl⟩, fun k => ?_⟩
  · match k with
    | 0 => decide
    | 1 => decide
    | 2 => decide
    | _ + 3 => simp
  · match k with
    | 0 => decide
    | _ + 1 => simp

/-- S2b. -/
theorem test_witness_HeaderlessWindowLeavesStore :
    ∃ (s : State) (bs : List (BitVec 64 × Byte)) (rest : List Slot), s.run = .run ∧ s.fill = 0 ∧
      bs.length = 9 ∧ (bs.map Prod.snd).take 2 ≠ [0x59#8, 0x59#8] ∧ s.inputs = byteSlots bs ++ rest :=
  ⟨offered State.reset 7#64 [0x59, 0x00, 0x64, 0x00, 0x32, 0x00, 0x80, 0x08, 0xD0],
    [0x59, 0x00, 0x64, 0x00, 0x32, 0x00, 0x80, 0x08, 0xD0].map (fun b => (7#64, b)), [],
    rfl, rfl, rfl, by decide, rfl⟩

theorem test_witness_OnlyNinthByteTouchesStore :
    (held (Vector.replicate 9 0x59) 7).fill ≠ 8 ∧ State.reset.fill ≠ 8 := by decide

/-- V4 and V9: strength 10, and distance 65533 between the sentinels. -/
theorem test_witness_FrameAccepted :
    (Pending (faint 0x64 0x00 0x0A) ⟨100#16, 10#16, 2176#16, 0xA8#8⟩ ∧
      ChecksumValid ⟨100#16, 10#16, 2176#16, 0xA8#8⟩) ∧
    (Pending (strong 0xFD 0xFF) ⟨65533#16, 50#16, 2176#16, 0x68#8⟩ ∧
      ChecksumValid ⟨65533#16, 50#16, 2176#16, 0x68#8⟩) := by
  unfold Pending ChecksumValid; decide

/-- V16. -/
theorem test_witness_FrameChecksumRejected :
    Pending (strong 0x64 0x00) ⟨100#16, 50#16, 2176#16, 0xCF#8⟩ ∧
      ¬ ChecksumValid ⟨100#16, 50#16, 2176#16, 0xCF#8⟩ := by
  unfold Pending ChecksumValid; decide

/-- V3, and V6 at the other end. -/
theorem test_witness_FrameWeakRejected :
    (Pending (faint 0x64 0x00 0x09) ⟨100#16, 9#16, 2176#16, 0xA7#8⟩ ∧
      ChecksumValid ⟨100#16, 9#16, 2176#16, 0xA7#8⟩) ∧
    (Pending (faint 0x64 0x00 0x00) ⟨100#16, 0#16, 2176#16, 0x9E#8⟩ ∧
      ChecksumValid ⟨100#16, 0#16, 2176#16, 0x9E#8⟩) := by
  unfold Pending ChecksumValid; decide

/-- V10 and V11. -/
theorem test_witness_FrameSaturatedRejected :
    (Pending (strong 0xFE 0xFF) ⟨65534#16, 50#16, 2176#16, 0x69#8⟩ ∧
      ChecksumValid ⟨65534#16, 50#16, 2176#16, 0x69#8⟩) ∧
    (Pending (strong 0xFF 0xFF) ⟨65535#16, 50#16, 2176#16, 0x6A#8⟩ ∧
      ChecksumValid ⟨65535#16, 50#16, 2176#16, 0x6A#8⟩) := by
  unfold Pending ChecksumValid; decide

/-- V8. -/
theorem test_witness_FrameInterferenceRejected :
    Pending (strong 0xFC 0xFF) ⟨65532#16, 50#16, 2176#16, 0x67#8⟩ ∧
      ChecksumValid ⟨65532#16, 50#16, 2176#16, 0x67#8⟩ := by
  unfold Pending ChecksumValid; decide

theorem test_witness_RowsFollowTheirSymbol :
    (Instr.byteNinth 0#8 = .byteHunt0 0#8 ∨ Instr.byteNinth 0#8 = .byteHunt1 0#8 ∨
      Instr.byteNinth 0#8 = .byteCollect 0#8 ∨ Instr.byteNinth 0#8 = .byteNinth 0#8) ∧
    (Instr.rejIntf ⟨0#16, 0#16, 0#16, 0#8⟩ = .accept ⟨0#16, 0#16, 0#16, 0#8⟩ ∨
      Instr.rejIntf ⟨0#16, 0#16, 0#16, 0#8⟩ = .rejIntf ⟨0#16, 0#16, 0#16, 0#8⟩) := by decide

/-- Each side of the disjunction: V11's and V3's windows. -/
theorem test_witness_SentinelOrWeakNeverAccepted :
    ((strong 0xFF 0xFF).run = .run ∧ (strong 0xFF 0xFF).fill = 8 ∧
      (strong 0xFF 0xFF).win[2].toNat + 256 * (strong 0xFF 0xFF).win[3].toNat = 65535) ∧
    ((faint 0x64 0x00 0x09).run = .run ∧ (faint 0x64 0x00 0x09).fill = 8 ∧
      (faint 0x64 0x00 0x09).win[4].toNat + 256 * (faint 0x64 0x00 0x09).win[5].toNat = 9) := by decide

/-- V20 and V16: a changed `b2` and a changed `b8`. -/
theorem test_witness_OneCorruptByteIsCaught :
    (strong 0x64 0x00).run = .run ∧ (strong 0x64 0x00).fill = 8 ∧
      sumNat (strong 0x64 0x00).win % 256 = (0xD0#8 : Byte).toNat ∧
      (0x65#8 : Byte) ≠ (strong 0x64 0x00).win[2] ∧ (0x09#8 : Byte) ≠ (strong 0x64 0x00).win[7] ∧
      (0xCF#8 : Byte) ≠ 0xD0#8 := by decide

/-- The last case of the statement: a publish that changes the store. -/
theorem test_witness_StoreWrittenOnlyByPublish :
    ∃ t, exec (.byte 0xD0#8) (strong 0x64 0x00) = .next t ∧ t.store ≠ (strong 0x64 0x00).store :=
  ⟨_, rfl, by decide⟩

/-- S1c. -/
theorem test_witness_WholeFramePublishes :
    ∃ (s : State) (f : Frame) (ts : List (BitVec 64)) (tn : BitVec 64) (rest : List Slot),
      s.run = .run ∧ s.fill = 0 ∧ ChecksumValid f ∧ 10 ≤ f.str.toNat ∧ f.dist.toNat ≠ 65532 ∧
      f.dist.toNat ≠ 65534 ∧ f.dist.toNat ≠ 65535 ∧ ts.length = 8 ∧
      s.inputs = byteSlots ((ts ++ [tn]).zip (framexBytes f.dist f.str f.raw f.csum)) ++ rest :=
  ⟨offered State.reset 7#64 [0x59, 0x59, 0x64, 0x00, 0x32, 0x00, 0x80, 0x08, 0xD0],
    ⟨100#16, 50#16, 2176#16, 0xD0#8⟩, List.replicate 8 7#64, 7#64, [],
    rfl, rfl, by unfold ChecksumValid; decide, by decide, by decide, by decide, by decide, rfl, rfl⟩

theorem test_witness_EndOfStreamCloses : afterS1c.run = .run := by decide

theorem test_witness_TransportFaultIsFatal : (held (Vector.replicate 9 0x59) 1).run = .run := by decide

theorem test_witness_NothingConsumedAfterTermination :
    x1.run ≠ .run ∧ isStream (.byte 0x59#8) = true ∧ isStream .eos = true ∧
      ({ State.reset with run := .closed } : State).run ≠ .run := by decide

/-- Each case of the statement is met. -/
theorem test_witness_RunMovesOnlyByTerminalSymbolsAndReset :
    seen (exec (.byte 0x59#8) State.reset) (fun t => t.run) = some .run ∧
    seen (exec .eos State.reset) (fun t => t.run) = some .closed ∧
    seen (exec .fault State.reset) (fun t => t.run) = some .fatal ∧
    seen (exec .reset x1) (fun t => t.run) = some .run := by decide

/-- Both ends of each range of words. -/
theorem test_witness_SnapshotWordsRead : (0#4).toNat < 8 ∧ (7#4).toNat < 8 := by decide

theorem test_witness_StatusWordsRead : 8 ≤ (8#4).toNat ∧ 8 ≤ (15#4).toNat := by decide

theorem test_witness_ReadersCannotDisturb :
    isReader (.capture 0) = true ∧ isReader (.rdsnap 1 7#4) = true ∧ isReader (.rdstat 1 8#4) = true ∧
      Instr.capture 0 ≠ .capture 1 := by decide

theorem test_witness_SnapshotChangesOnlyOnCapture :
    ∃ t, exec (.capture 0) afterS1c = .next t ∧ Instr.capture 0 ≠ .capture 1 ∧ Instr.capture 0 ≠ .reset :=
  ⟨_, rfl, by decide, by decide⟩

theorem test_witness_StreamSideIgnoresSnapshots :
    isStream (.byteNinth 0xD0#8) = true ∧ isStream (.accept ⟨100#16, 50#16, 2176#16, 0xD0#8⟩) = true := by
  decide

theorem test_witness_PublishesOnlyGrow :
    ∃ t, exec (.byte 0xD0#8) (strong 0x64 0x00) = .next t ∧ Instr.byte 0xD0#8 ≠ .reset ∧
      t.published.length = 1 :=
  ⟨_, rfl, by decide, by decide⟩

/-- One symbol for each clause: Y8, Y5, Y2. -/
theorem test_witness_SymbolDecodesByMasks :
    0x3FF#10 &&& 0x200#10 = 0x200#10 ∧ 0x1AB#10 &&& 0x300#10 = 0x100#10 ∧
      0x0FF#10 &&& 0x300#10 = 0x000#10 := by decide

/-- One command for each clause: C2v, C4v, C5v. -/
theorem test_witness_CommandDecodesByMasks :
    0x1F#5 &&& 0x10#5 = 0x10#5 ∧ 0x07#5 &&& 0x18#5 = 0x00#5 ∧ 0x08#5 &&& 0x18#5 = 0x08#5 := by decide

theorem test_witness_FrameWordsDecodeFaithfully :
    (0x5859640032008008D0#72).toNat / 2 ^ 56 ≠ 0x5959 ∧ (0x5959640032008008D0#72).toNat / 2 ^ 56 = 0x5959 := by
  decide

/-- A well-formed operation of every kind that the check looks at. -/
theorem test_witness_DecodeEncodeRoundTrip :
    (Instr.byteHunt0 0xFF#8).wellFormed = true ∧ (Instr.rdsnap 1 7#4).wellFormed = true ∧
    (Instr.rdstat 1 15#4).wellFormed = true ∧
    (Instr.accept ⟨65533#16, 65535#16, 65535#16, 0xAA#8⟩).wellFormed = true ∧
    (Instr.rejWeak ⟨65532#16, 9#16, 2176#16, 0x3E#8⟩).wellFormed = true := by decide

theorem test_witness_DecodedIsWellFormed :
    decode ⟨.frame, 0x5959FEFF3200800869⟩ = .ok (.rejSat ⟨65534#16, 50#16, 2176#16, 0x69#8⟩) := rfl

theorem test_witness_StepRunsOfferedEvent :
    (offered State.reset 7#64 [0x59]).inputs = [⟨7#64, .stream 0x059#10⟩] ∧
    ({ State.reset with inputs := [⟨7#64, .command 1 0x10#5⟩] } : State).inputs =
      ⟨7#64, .command 1 0x10#5⟩ :: [] ∧
    ({ State.reset with inputs := [⟨7#64, .rst⟩] } : State).inputs = ⟨7#64, .rst⟩ :: [] := by decide

theorem test_witness_IdleBlockWaits :
    State.reset.inputs = [] ∧ State.reset.beyond = none ∧
    ({ State.reset with inputs := [⟨7#64, .idle⟩] } : State).inputs = ⟨7#64, .idle⟩ :: [] := by decide

/-- A listing of one byte, and none at all, before the endless sequence. -/
theorem test_witness_EndlessInputRunsLikeItsListing :
    (afterS1c.inputs = [⟨8#64, .stream 0x059#10⟩] ∧ ({ afterS1c with beyond := some 0 } : State).beyond = some 0) ∧
    ({ State.reset with beyond := some 5 } : State).inputs = [] := by decide

/-- A step takes the slot of the endless sequence whose turn it is, and no step waits there. -/
theorem test_endless_slot_taken :
    ({ State.reset with beyond := some 5 } : State).nextSlot =
      some (Config.freeSlot 5, { State.reset with beyond := some 6, now := (Config.freeSlot 5).now }) := rfl

/-- One slot for each clause, at the values where the clauses meet. -/
theorem test_witness_StepAlwaysAnswers :
    (offered State.reset 7#64 [0xFF]).inputs = [⟨7#64, .stream 0x0FF#10⟩] ∧ State.reset.run = .run ∧
    (0x0FF#10).toNat < 256 ∧ 256 ≤ (0x100#10).toNat ∧ (0x0F#5).toNat < 16 ∧ 16 ≤ (0x10#5).toNat ∧
    (Slot.mk 7#64 (.command 1 0x0F#5)).event = .command 1 0x0F#5 ∧ (Slot.mk 7#64 .rst).event = .rst := by decide

/-- Every condition of the map on `fill`, and a window for every outcome: V16, V3, V10, V11, V8, V4. -/
theorem test_witness_ByteIsItsDecodeMapRow :
    (∀ m : Fin 9, (held (Vector.replicate 9 0x59) m).fill = m) ∧
    byteRow 8 (strong 0x64 0x00).win 0xCF#8 = .rejCsum ⟨100#16, 50#16, 2176#16, 0xCF#8⟩ ∧
    byteRow 8 (faint 0x64 0x00 0x09).win 0xA7#8 = .rejWeak ⟨100#16, 9#16, 2176#16, 0xA7#8⟩ ∧
    byteRow 8 (strong 0xFE 0xFF).win 0x69#8 = .rejSat ⟨65534#16, 50#16, 2176#16, 0x69#8⟩ ∧
    byteRow 8 (strong 0xFF 0xFF).win 0x6A#8 = .rejSat ⟨65535#16, 50#16, 2176#16, 0x6A#8⟩ ∧
    byteRow 8 (strong 0xFC 0xFF).win 0x67#8 = .rejIntf ⟨65532#16, 50#16, 2176#16, 0x67#8⟩ ∧
    byteRow 8 (faint 0x64 0x00 0x0A).win 0xA8#8 = .accept ⟨100#16, 10#16, 2176#16, 0xA8#8⟩ := by decide

/-- A byte held (the first and the eighth), a byte dropped, and the ninth. -/
theorem test_witness_RunningChecksumIsTheSum :
    ((strong 0x64 0x00).fill = 8 ∧ (strong 0x64 0x00).run = .run ∧ (strong 0x64 0x00).acc = 0xD0#8) ∧
    seen (exec (.byte 0x59#8) State.reset) (fun t => (t.fill, t.acc)) = some (1, 0x59#8) ∧
    seen (exec (.byte 0x59#8) (held #v[0x59, 0x59, 0x59, 0x59, 0x59, 0x59, 0x59, 0, 0] 7))
      (fun t => (t.fill, t.acc)) = some (8, 0xC8#8) ∧
    seen (exec (.byte 0x00#8) (held #v[0x59, 0, 0, 0, 0, 0, 0, 0, 0] 1)) (fun t => (t.fill, t.acc)) =
      some (0, 0x00#8) ∧
    seen (exec (.byte 0xD0#8) (strong 0x64 0x00)) (fun t => (t.fill, t.acc)) = some (0, 0x00#8) := by decide

end Sys2Proof.Tests
end

section
/-!
SUPPORT. The meaning of every operation as one total function of the state, its independence of the inputs
still to come (R15, R34: they are no state of the block), and what a run through a sequence of slots leaves.
-/
namespace Sys2Proof.Machine

open Sys2Proof.Claims

/-! ### What each operation does -/

/-- The state an operation leaves (R19). Every row whose event is a stream byte does what that byte does by
R118, its own condition included in it (log entries 10 and 11). -/
def State.perform (s : State) : Instr → State
  | .byte v | .byteHunt0 v | .byteHunt1 v | .byteCollect v | .byteNinth v => s.consumeByte v
  | .eos => s.terminate .streamClosed
  | .fault => s.terminate .transportFault
  | .accept f | .rejCsum f | .rejWeak f | .rejSat f | .rejIntf f => s.consumeByte f.csum
  | .capture r => s.captureInto r
  | .rdsnap r k | .rdstat r k => s.showRead r k (s.regRead r k)
  | .reset => s.resetBlock

/-- The ninth byte of a pending frame writes what the frame's outcome says (R113, R130). -/
theorem consumeByte_of_awaits {s : State} {f : Frame} {o : FrameOutcome}
    (h : s.awaitsNinthOf f = true ∧ frameOutcome f = o) :
    s.consumeByte f.csum = (s.takeNinth f.csum).conclude f o := by
  obtain ⟨hawaits, rfl⟩ := h
  obtain ⟨hrun, hfill, hframe, heval⟩ := evaluate_of_awaits hawaits
  rw [consumeByte_ninth hrun hfill, State.ninth, hframe, heval]

/-- Every operation answers a next state in every state: nothing faults and nothing is refused (R65). Where a
row has a condition of its own, the row and the byte it carries agree under it. -/
theorem exec_eq_perform (i : Instr) (s : State) : exec i s = .next (s.perform i) := by
  cases i with
  | byteHunt0 v => exact ite_eq_right_iff.mpr fun ⟨hr, hf⟩ => congrArg _ (consumeByte_hunt0 hr hf).symm
  | byteHunt1 v => exact ite_eq_right_iff.mpr fun ⟨hr, hf⟩ => congrArg _ (consumeByte_hunt1 hr hf).symm
  | byteCollect v => exact ite_eq_right_iff.mpr fun ⟨hr, h2, h7⟩ => congrArg _ (consumeByte_collect hr h2 h7).symm
  | byteNinth v => exact ite_eq_right_iff.mpr fun ⟨hr, hf⟩ => congrArg _ (consumeByte_ninth hr hf).symm
  | accept f | rejCsum f | rejWeak f | rejSat f | rejIntf f =>
    exact ite_eq_right_iff.mpr fun h => congrArg _ (consumeByte_of_awaits h).symm
  | byte | eos | fault | capture | rdsnap | rdstat | reset => rfl

/-! ### No operation reads or writes the inputs to come -/

/-- The state with other inputs to come: the listing `l`, and `b` after it (R15). -/
def State.withSource (s : State) (l : List Slot) (b : Option Nat) : State := { s with inputs := l, beyond := b }

variable (s : State) (l : List Slot) (b : Option Nat)

theorem withSource_self : s.withSource s.inputs s.beyond = s := rfl

theorem hunt0_withSource (v : Byte) : (s.withSource l b).hunt0 v = (s.hunt0 v).withSource l b := by
  unfold State.hunt0
  split <;> rfl

theorem hunt1_withSource (v : Byte) : (s.withSource l b).hunt1 v = (s.hunt1 v).withSource l b := by
  unfold State.hunt1
  split <;> rfl

theorem conclude_withSource (f : Frame) (o : FrameOutcome) :
    (s.withSource l b).conclude f o = (s.conclude f o).withSource l b := by
  cases o <;> rfl

theorem ninth_withSource (v : Byte) : (s.withSource l b).ninth v = (s.ninth v).withSource l b :=
  conclude_withSource (s.takeNinth v) l b (frameOf s.win v) (evaluate s.win v)

theorem consumeByte_withSource (v : Byte) :
    (s.withSource l b).consumeByte v = (s.consumeByte v).withSource l b := by
  let u := s.withSource l b
  rcases consumeByte_cases s v with ⟨hr, h⟩ | ⟨hr, hf, h⟩ | ⟨hr, hf, h⟩ | ⟨hr, hf, h⟩ | ⟨hr, h2, h7, h⟩ <;>
    rw [h]
  · exact consumeByte_stopped (s := u) hr
  · exact (consumeByte_hunt0 (s := u) hr hf).trans (hunt0_withSource s l b v)
  · exact (consumeByte_hunt1 (s := u) hr hf).trans (hunt1_withSource s l b v)
  · exact (consumeByte_ninth (s := u) hr hf).trans (ninth_withSource s l b v)
  · exact consumeByte_collect (s := u) hr h2 h7

theorem terminate_withSource (c : Terminal) :
    (s.withSource l b).terminate c = (s.terminate c).withSource l b := by
  let u := s.withSource l b
  by_cases hr : s.run = .run
  · cases c with
    | streamClosed => rw [terminate_streamClosed hr]; exact terminate_streamClosed (s := u) hr
    | transportFault => rw [terminate_transportFault hr]; exact terminate_transportFault (s := u) hr
  · rw [terminate_stopped c hr]; exact terminate_stopped (s := u) c hr

/-- What an operation does is the same whatever inputs are still to come, and it leaves them as they are. -/
theorem perform_withSource (i : Instr) : (s.withSource l b).perform i = (s.perform i).withSource l b := by
  cases i with
  | byte v | byteHunt0 v | byteHunt1 v | byteCollect v | byteNinth v => exact consumeByte_withSource s l b v
  | accept f | rejCsum f | rejWeak f | rejSat f | rejIntf f => exact consumeByte_withSource s l b f.csum
  | eos => exact terminate_withSource s l b .streamClosed
  | fault => exact terminate_withSource s l b .transportFault
  | capture | rdsnap | rdstat | reset => rfl

/-! ### One step and a run -/

/-- The state one slot leaves (R56): its `now` on the time input, its event decoded and dealt with. -/
def State.takeSlot (s : State) (slot : Slot) : State :=
  match decodeEvent slot.event with
  | none => { s with now := slot.now }
  | some i => State.perform { s with now := slot.now } i

theorem takeSlot_withSource (slot : Slot) : (s.withSource l b).takeSlot slot = (s.takeSlot slot).withSource l b := by
  unfold State.takeSlot
  cases decodeEvent slot.event with
  | none => rfl
  | some i => exact perform_withSource { s with now := slot.now } l b i

/-- A step deals with the slot fetched; `u` is the state with that slot taken off the inputs. -/
theorem step_of_fetch {t u : State} {slot : Slot}
    (h : t.fetch = some (decodeEvent slot.event, { u with now := slot.now })) :
    step t = .next (u.takeSlot slot) := by
  unfold step State.takeSlot
  rw [h]
  cases decodeEvent slot.event with
  | none => rfl
  | some i => exact exec_eq_perform i { u with now := slot.now }

/-- A step with a listing takes its head. -/
theorem step_listing (slot : Slot) :
    step (s.withSource (slot :: l) b) = .next ((s.takeSlot slot).withSource l b) := by
  rw [← takeSlot_withSource]
  exact step_of_fetch (fetch_cons rfl)

/-- A step past the listing takes the slot of the endless sequence whose turn it is (R15). -/
theorem step_endless (n : Nat) :
    step (s.withSource [] (some n)) = .next ((s.takeSlot (Config.freeSlot n)).withSource [] (some (n + 1))) := by
  rw [← takeSlot_withSource]
  exact step_of_fetch (fetch_beyond rfl rfl)

theorem run_succ {M : Host.Core} {t u : M.State} (k : Nat) (h : M.step t = .next u) :
    M.run (k + 1) t = M.run k u := by
  simp only [Host.Core.run, h]

theorem runSteps_succ {t u : State} (k : Nat) (h : step t = .next u) : runSteps (k + 1) t = runSteps k u :=
  run_succ (M := core) k h

/-- A run through a listing deals with its slots one after the other and goes on from there, whatever comes
after the listing. -/
theorem runSteps_listing (slots : List Slot) (k : Nat) :
    runSteps (slots.length + k) (s.withSource (slots ++ l) b) =
      runSteps k ((slots.foldl State.takeSlot s).withSource l b) := by
  induction slots generalizing s with
  | nil => rw [List.length_nil, Nat.zero_add]; rfl
  | cons slot rest ih =>
    rw [List.length_cons, Nat.add_right_comm]
    exact (runSteps_succ _ (step_listing s (rest ++ l) b slot)).trans (ih _)

/-- The `k` slots of the endless sequence from its place `n` on (log entry 20). -/
def freeSlots (n k : Nat) : List Slot := (List.range' n k).map Config.freeSlot

@[simp] theorem length_freeSlots (n k : Nat) : (freeSlots n k).length = k := by
  simp [freeSlots]

/-- A run past the listing deals with the slots of the endless sequence one after the other. -/
theorem runSteps_endless (k n : Nat) :
    runSteps k (s.withSource [] (some n)) =
      .next (((freeSlots n k).foldl State.takeSlot s).withSource [] (some (n + k))) := by
  induction k generalizing s n with
  | zero => rfl
  | succ k ih =>
    rw [runSteps_succ k (step_endless s n), ih, Nat.add_right_comm]
    rfl

end Sys2Proof.Machine
end

section
open Sys2Proof Sys2Proof.Machine Sys2Proof.Claims

/-- Settles O55: with or without the endless sequence written out, the run takes the same slots in the same
order, and no operation sees which of the two it is. -/
theorem endlessInputRunsLikeItsListing : Obligations.EndlessInputRunsLikeItsListing := by
  unfold Obligations.EndlessInputRunsLikeItsListing
  rintro k n l s rfl hbeyond
  refine ⟨((s.inputs ++ freeSlots n k).foldl State.takeSlot s).withSource [] (some (n + k)), ?_, rfl, rfl, ?_⟩
  · have hlisting := runSteps_listing s [] (some n) s.inputs k
    rw [List.append_nil, ← hbeyond, withSource_self, hbeyond] at hlisting
    rw [hlisting, runSteps_endless, List.foldl_append]
  · have hwritten := runSteps_listing s [] (some (n + k)) (s.inputs ++ freeSlots n k) 0
    rw [List.append_nil, List.length_append, length_freeSlots] at hwritten
    exact hwritten

end

section
/-!
SUPPORT. The invariants of R35 (State.Inv), one lemma for each operation: what the records, the counters and
the window keep, up to a whole step.
-/
namespace Sys2Proof.Machine

open Sys2Proof.Claims

variable {s : State}

/-! ### Records -/

/-- What an accepted evaluation says of the candidate frame (R130). -/
theorem evaluate_accept {w : Window} {v : Byte} (h : evaluate w v = .accept) :
    checksumOf w = v ∧ 10 ≤ (strengthOf w).toNat ∧ distanceOf w ≠ 65532#16 ∧ distanceOf w ≠ 65534#16 ∧
      distanceOf w ≠ 65535#16 := by
  simpa [h] using evaluate_cases w v

/-- An accepted frame is published as a record that I4 and I5 of R35 allow. -/
theorem publishedRecord_ok {w : Window} {v : Byte} (h : evaluate w v = .accept) (n : Config.Timestamp)
    (g : Config.Generation) : (publishedRecord (frameOf w v) n g).Ok := by
  obtain ⟨-, hstr, hintf, hsatA, hsatB⟩ := evaluate_accept h
  exact ⟨nofun, fun _ => ⟨hstr, hintf, hsatA, hsatB, rawTempOf w, rfl⟩⟩

theorem unset_ok : Record.unset.Ok := ⟨fun _ => rfl, nofun⟩

theorem ok_of_mem_numbered {l : List Record} (h : Numbered l) {x : Record} (hx : x ∈ l) : x.Ok := by
  induction l with
  | nil => cases hx
  | cons y rest ih =>
    obtain ⟨-, hok, -, hrest⟩ := h
    rcases List.mem_cons.mp hx with rfl | hx
    · exact hok
    · exact ih hrest hx

/-- The ninth byte publishes the frame it completes, or leaves the store and the list of publishes alone. -/
theorem ninth_store_cases (s : State) (v : Byte) :
    (evaluate s.win v = .accept ∧ s.ninth v = (s.takeNinth v).publishFrame (frameOf s.win v)) ∨
    ((s.ninth v).store = s.store ∧ (s.ninth v).published = s.published) := by
  rcases ninth_cases s v with h | ⟨-, h⟩ | ⟨-, h⟩ | ⟨-, h⟩ | ⟨-, h⟩
  · exact .inl h
  all_goals exact .inr (h ▸ ⟨rfl, rfl⟩)

/-- The store is unset or holds a record as it was published (R57). -/
theorem State.Inv.store_published (hs : s.Inv) : s.store = Record.unset ∨ s.store ∈ s.published := by
  rw [hs.storeIsLast]
  cases s.published with
  | nil => exact .inl rfl
  | cons x rest => exact .inr List.mem_cons_self

/-- The generation is the number of publishes, modulo 2^32 (R30). -/
theorem State.Inv.gen_eq (hs : s.Inv) : s.store.gen = BitVec.ofNat 32 s.published.length := by
  have hnum := hs.history
  rw [hs.storeIsLast]
  cases hl : s.published with
  | nil => rfl
  | cons x rest =>
    rw [hl] at hnum
    obtain ⟨-, -, hgen, -⟩ := hnum
    exact hgen

theorem State.Inv.ok_of_unset_or_published (hs : s.Inv) {x : Record}
    (hx : x = Record.unset ∨ x ∈ s.published) : x.Ok := by
  rcases hx with rfl | hx
  · exact unset_ok
  · exact ok_of_mem_numbered hs.history hx

/-- I3 to I6 at a ninth byte: the list of publishes, the store and the snapshots. -/
theorem State.Inv.ninth_records (hs : s.Inv) (v : Byte) :
    Numbered (s.ninth v).published ∧ (s.ninth v).store = (s.ninth v).published.head?.getD Record.unset ∧
      ∀ r : PortId, s.snap[r] = Record.unset ∨ s.snap[r] ∈ (s.ninth v).published := by
  rcases ninth_store_cases s v with ⟨haccept, h⟩ | ⟨hstore, hpub⟩
  · rw [h]
    refine ⟨⟨rfl, publishedRecord_ok haccept s.now s.store.gen, ?_, hs.history⟩, rfl, fun r => ?_⟩
    · exact (congrArg (· + 1#32) hs.gen_eq).trans (BitVec.ofNat_add _ _).symm
    · exact (hs.snapsPublished r).imp_right (List.mem_cons_of_mem _)
  · rw [hstore, hpub]
    exact ⟨hs.history, hs.storeIsLast, hs.snapsPublished⟩

/-! ### Counters -/

section Outcome
variable (s : State) (f : Frame) (o : FrameOutcome)

@[simp] theorem conclude_fill : (s.conclude f o).fill = s.fill := by cases o <;> rfl
@[simp] theorem conclude_run : (s.conclude f o).run = s.run := by cases o <;> rfl
@[simp] theorem conclude_nSkip : (s.conclude f o).nSkip = s.nSkip := by cases o <;> rfl
@[simp] theorem conclude_snap : (s.conclude f o).snap = s.snap := by cases o <;> rfl
@[simp] theorem conclude_pos : (s.conclude f o).pos = s.pos := by cases o <;> rfl
@[simp] theorem conclude_frames : (s.conclude f o).frames = s.frames := by cases o <;> rfl

/-- Every outcome is counted once (R24 (b)). -/
theorem framesCounted_conclude : (s.conclude f o).framesCounted = s.framesCounted + 1#32 := by
  cases o <;> simp [State.conclude, State.framesCounted] <;> ring

theorem framesCountedNat_conclude_le : (s.conclude f o).framesCountedNat ≤ s.framesCountedNat + 1 := by
  cases o <;> simp [State.conclude, State.framesCountedNat] <;> omega

end Outcome

/-! ### The framer and the other operations -/

/-- A byte that completes no frame: `n` bytes of the window are held after it and `d` are skipped, so that
the two account for the bytes held before and the new one (I7). -/
theorem State.Inv.byteTaken (hs : s.Inv) {w : Window} {n : Fin 9} {d : Nat} {out : List Shown}
    (hd : d + n.val = s.fill.val + 1) (h0 : 1 ≤ n.val → w[0] = 0x59#8) (h1 : 2 ≤ n.val → w[1] = 0x59#8) :
    State.Inv { s with
      win := w, fill := n, nSkip := s.nSkip + BitVec.ofNat 32 d, pos := s.pos + 1, out := out } :=
  { hs with
    header0 := h0
    header1 := h1
    bytesCounted := by
      have hword := congrArg (BitVec.ofNat 32) hd
      have hcount := hs.bytesCounted
      simp only [State.framesCounted, BitVec.ofNat_add] at hword hcount ⊢
      linear_combination hcount - hword
    bytesBound := by
      have hbound := hs.bytesBound
      simp only [State.framesCountedNat, BitVec.toNat_add, BitVec.toNat_ofNat] at hbound ⊢
      omega }

/-- A byte that is held, with no byte skipped. -/
theorem State.Inv.byteHeld (hs : s.Inv) {w : Window} {n : Fin 9} {out : List Shown}
    (hn : n.val = s.fill.val + 1) (h0 : 1 ≤ n.val → w[0] = 0x59#8) (h1 : 2 ≤ n.val → w[1] = 0x59#8) :
    State.Inv { s with win := w, fill := n, pos := s.pos + 1, out := out } := by
  simpa using hs.byteTaken (d := 0) (out := out) ((Nat.zero_add _).trans hn) h0 h1

theorem State.Inv.hunt0 (hs : s.Inv) (hf : s.fill = 0) (v : Byte) : (s.hunt0 v).Inv := by
  by_cases hv : v = 0x59#8
  · rw [hunt0_header hv]
    exact hs.byteHeld (by simp [hf]) (fun _ => by simpa using hv) (by simp)
  · rw [hunt0_noise hv]
    exact hs.byteTaken (d := 1) (by simp [hf]) (by simp [hf]) (by simp [hf])

theorem State.Inv.hunt1 (hs : s.Inv) (hf : s.fill = 1) (v : Byte) : (s.hunt1 v).Inv := by
  by_cases hv : v = 0x59#8
  · rw [hunt1_header hv]
    exact hs.byteHeld (by simp [hf]) (fun _ => by simpa using hs.header0 (by simp [hf])) (fun _ => by simpa using hv)
  · rw [hunt1_false_start hv]
    exact hs.byteTaken (d := 2) (by simp [hf]) (by simp) (by simp)

/-- Below 8, one more byte is one more in `fill`. -/
theorem fill_succ (h7 : s.fill.val ≤ 7) : (s.fill + 1).val = s.fill.val + 1 :=
  Fin.val_add_one_of_lt' (by omega)

theorem State.Inv.collect (hs : s.Inv) (h2 : 2 ≤ s.fill.val) (h7 : s.fill.val ≤ 7) (v : Byte) :
    (s.collect v).Inv :=
  hs.byteHeld (fill_succ h7)
    (fun _ => (Vector.getElem_set_ne s.fill.isLt _ (by omega)).trans (hs.header0 (by omega)))
    (fun _ => (Vector.getElem_set_ne s.fill.isLt _ (by omega)).trans (hs.header1 h2))

/-- The ninth byte: nine bytes move from the window to the count of frames. -/
theorem State.Inv.ninth (hs : s.Inv) (hf : s.fill = 8) (v : Byte) : (s.ninth v).Inv := by
  obtain ⟨hhistory, hlast, hsnaps⟩ := hs.ninth_records v
  have hfill : (s.ninth v).fill = 0 := conclude_fill ..
  have hskip : (s.ninth v).nSkip = s.nSkip := conclude_nSkip ..
  have hpos : (s.ninth v).pos = s.pos + 1 := conclude_pos ..
  have hframes : (s.ninth v).frames = s.frames + 1 := conclude_frames ..
  have hcounted : (s.ninth v).framesCounted = s.framesCounted + 1#32 := framesCounted_conclude ..
  have hcountedNat : (s.ninth v).framesCountedNat ≤ s.framesCountedNat + 1 := framesCountedNat_conclude_le ..
  have hsnap : (s.ninth v).snap = s.snap := conclude_snap ..
  have hbytes := hs.bytesCounted
  have hbound := hs.bytesBound
  rw [hf] at hbytes hbound
  exact {
    header0 := fun h => absurd h (by simp [hfill])
    header1 := fun h => absurd h (by simp [hfill])
    history := hhistory
    storeIsLast := hlast
    snapsPublished := hsnap ▸ hsnaps
    bytesCounted := by rw [hpos, hskip, hcounted, hfill]; bv_omega
    bytesBound := by rw [hpos, hskip, hfill]; omega
    framesCounted := by rw [hframes, hcounted, ← hs.framesCounted, BitVec.ofNat_add] }

theorem State.Inv.consumeByte (hs : s.Inv) (v : Byte) : (s.consumeByte v).Inv := by
  rcases consumeByte_cases s v with ⟨-, h⟩ | ⟨-, hf, h⟩ | ⟨-, hf, h⟩ | ⟨-, hf, h⟩ | ⟨-, h2, h7, h⟩ <;> rw [h]
  · exact hs
  · exact hs.hunt0 hf v
  · exact hs.hunt1 hf v
  · exact hs.ninth hf v
  · exact hs.collect h2 h7 v

theorem State.Inv.terminate (hs : s.Inv) (c : Terminal) : (s.terminate c).Inv := by
  by_cases hr : s.run = .run
  · cases c with
    | streamClosed => rw [terminate_streamClosed hr]; exact { hs with }
    | transportFault => rw [terminate_transportFault hr]; exact { hs with }
  · rw [terminate_stopped c hr]; exact hs

/-- A capture writes one snapshot register (R54). -/
theorem captureInto_snap_ne (s : State) {r r' : PortId} (h : r ≠ r') : (s.captureInto r).snap[r'] = s.snap[r'] :=
  Vector.getElem_set_ne r.isLt r'.isLt (Fin.val_ne_of_ne h)

/-- A capture takes the store, which is unset or was published (I6). -/
theorem State.Inv.captureInto (hs : s.Inv) (r : PortId) : (s.captureInto r).Inv :=
  { hs with
    snapsPublished := fun r' => by
      by_cases hr : r = r'
      · subst hr
        simpa using hs.store_published
      · rw [captureInto_snap_ne s hr]
        exact hs.snapsPublished r' }

theorem reset_inv : State.reset.Inv where
  header0 := nofun
  header1 := nofun
  history := trivial
  storeIsLast := rfl
  snapsPublished := fun _ => .inl (Vector.getElem_replicate ..)
  bytesCounted := rfl
  bytesBound := Nat.le_refl 0
  framesCounted := rfl

theorem State.Inv.perform (hs : s.Inv) (i : Instr) : (s.perform i).Inv := by
  cases i with
  | byte v | byteHunt0 v | byteHunt1 v | byteCollect v | byteNinth v => exact hs.consumeByte v
  | accept f | rejCsum f | rejWeak f | rejSat f | rejIntf f => exact hs.consumeByte f.csum
  | eos => exact hs.terminate .streamClosed
  | fault => exact hs.terminate .transportFault
  | capture r => exact hs.captureInto r
  | rdsnap | rdstat => exact { hs with }
  | reset => exact { reset_inv with }

/-! ### One step -/

theorem State.Inv.takeSlot (hs : s.Inv) (slot : Slot) : (s.takeSlot slot).Inv := by
  unfold State.takeSlot
  cases decodeEvent slot.event with
  | none => exact { hs with }
  | some i =>
    have hnow : State.Inv { s with now := slot.now } := { hs with }
    exact hnow.perform i

/-- A step waits, or deals with one slot and leaves it off the inputs to come (R56, R193). -/
theorem step_cases (s : State) :
    step s = .next s ∨ ∃ slot l b, step s = .next ((s.withSource l b).takeSlot slot) := by
  cases hi : s.inputs with
  | cons slot rest => exact .inr ⟨slot, rest, s.beyond, step_of_fetch (fetch_cons hi)⟩
  | nil =>
    cases hb : s.beyond with
    | none => exact .inl (by rw [step, fetch_nil hi hb])
    | some n =>
      exact .inr ⟨Config.freeSlot n, [], some (n + 1), step_of_fetch (by rw [fetch_beyond hi hb, ← hi]; rfl)⟩

end Sys2Proof.Machine
end

section
open Sys2Proof Sys2Proof.Machine Sys2Proof.Claims

/-- Settles O5: a step waits or takes a slot, and every operation keeps the invariants. -/
theorem stepKeepsInvariant : Obligations.StepKeepsInvariant := by
  unfold Obligations.StepKeepsInvariant
  intro s t hs hstep
  rcases step_cases s with h | ⟨slot, l, b, h⟩ <;> cases h.symm.trans hstep
  · exact hs
  · have hsource : (s.withSource l b).Inv := { hs with }
    exact hsource.takeSlot slot

/-- Settles O4: nothing is held, counted or published yet. -/
theorem invariantHoldsAtReset : Obligations.InvariantHoldsAtReset := reset_inv

/-- Settles O6: by I6 a snapshot, like the store, is unset or one of the records published. -/
theorem invariantBoundsRecords : Obligations.InvariantBoundsRecords := by
  unfold Obligations.InvariantBoundsRecords
  intro s hs x hx
  have hok : x.Ok := by
    rcases hx with rfl | ⟨r, rfl⟩
    · exact hs.ok_of_unset_or_published hs.store_published
    · exact hs.ok_of_unset_or_published (hs.snapsPublished r)
  obtain ⟨hunset, hvalid⟩ := hok
  refine ⟨hunset, fun h => ?_⟩
  obtain ⟨hstr, hintf, hsatA, hsatB, hraw⟩ := hvalid h
  exact ⟨hstr, BitVec.toNat_ne.mp hintf, BitVec.toNat_ne.mp hsatA, BitVec.toNat_ne.mp hsatB, hraw⟩

/-- Settles O7: the bound of the invariant keeps both sides of its congruence below 2^32. -/
theorem byteCountIdentity : Obligations.ByteCountIdentity := by
  unfold Obligations.ByteCountIdentity
  intro s hs hpos
  have hbytes := congrArg BitVec.toNat hs.bytesCounted
  have hbound := hs.bytesBound
  simp only [State.framesCounted, State.framesCountedNat, BitVec.toNat_add, BitVec.toNat_mul,
    BitVec.toNat_ofNat] at hbytes hbound
  omega

end

section
/-!
SUPPORT. What the stream bytes leave unchanged, the one way the store is written, and the running checksum as
a sum.
-/
namespace Sys2Proof.Machine

open Sys2Proof.Claims

variable (s : State) (v : Byte)

/-! ### Frames of the framer -/

theorem hunt0_frame : (s.hunt0 v).run = s.run ∧ (s.hunt0 v).snap = s.snap ∧ (s.hunt0 v).store = s.store := by
  unfold State.hunt0
  split <;> exact ⟨rfl, rfl, rfl⟩

theorem hunt1_frame : (s.hunt1 v).run = s.run ∧ (s.hunt1 v).snap = s.snap ∧ (s.hunt1 v).store = s.store := by
  unfold State.hunt1
  split <;> exact ⟨rfl, rfl, rfl⟩

/-- No stream byte writes `run` or a snapshot register (R25, R32). -/
theorem consumeByte_frame : (s.consumeByte v).run = s.run ∧ (s.consumeByte v).snap = s.snap := by
  rcases consumeByte_cases s v with ⟨-, h⟩ | ⟨-, -, h⟩ | ⟨-, -, h⟩ | ⟨-, -, h⟩ | ⟨-, -, -, h⟩ <;> rw [h]
  · exact ⟨rfl, rfl⟩
  · obtain ⟨hrun, hsnap, -⟩ := hunt0_frame s v
    exact ⟨hrun, hsnap⟩
  · obtain ⟨hrun, hsnap, -⟩ := hunt1_frame s v
    exact ⟨hrun, hsnap⟩
  · exact ⟨conclude_run .., conclude_snap ..⟩
  · exact ⟨rfl, rfl⟩

theorem terminate_frame (c : Terminal) : (s.terminate c).snap = s.snap ∧ (s.terminate c).store = s.store := by
  by_cases hr : s.run = .run
  · cases c with
    | streamClosed => rw [terminate_streamClosed hr]; exact ⟨rfl, rfl⟩
    | transportFault => rw [terminate_transportFault hr]; exact ⟨rfl, rfl⟩
  · rw [terminate_stopped c hr]; exact ⟨rfl, rfl⟩

/-! ### The store -/

/-- A stream byte leaves the store alone, or is the ninth byte of a frame that is published. -/
theorem consumeByte_store_cases :
    (s.consumeByte v).store = s.store ∨
    (s.run = .run ∧ s.fill = 8 ∧ evaluate s.win v = .accept ∧
      s.consumeByte v = (s.takeNinth v).publishFrame (frameOf s.win v)) := by
  rcases consumeByte_cases s v with ⟨-, h⟩ | ⟨-, -, h⟩ | ⟨-, -, h⟩ | ⟨hr, hf, h⟩ | ⟨-, -, -, h⟩ <;> rw [h]
  · exact .inl rfl
  · obtain ⟨-, -, hstore⟩ := hunt0_frame s v
    exact .inl hstore
  · obtain ⟨-, -, hstore⟩ := hunt1_frame s v
    exact .inl hstore
  · rcases ninth_store_cases s v with ⟨haccept, hpublish⟩ | ⟨hstore, -⟩
    · exact .inr ⟨hr, hf, haccept, hpublish⟩
    · exact .inl hstore
  · exact .inl rfl

/-- The store changes only by `RESET` and by a publish (R51). -/
theorem perform_store_cases (i : Instr) :
    (s.perform i).store = s.store ∨ i = .reset ∨
    (isStream i = true ∧ s.run = .run ∧ s.fill = 8 ∧ ∃ v, evaluate s.win v = .accept ∧
      s.perform i = (s.takeNinth v).publishFrame (frameOf s.win v)) := by
  cases i with
  | byte v | byteHunt0 v | byteHunt1 v | byteCollect v | byteNinth v =>
    exact (consumeByte_store_cases s v).imp_right fun ⟨hr, hf, h⟩ => .inr ⟨rfl, hr, hf, v, h⟩
  | accept f | rejCsum f | rejWeak f | rejSat f | rejIntf f =>
    exact (consumeByte_store_cases s f.csum).imp_right fun ⟨hr, hf, h⟩ => .inr ⟨rfl, hr, hf, f.csum, h⟩
  | eos => exact .inl (terminate_frame s .streamClosed).2
  | fault => exact .inl (terminate_frame s .transportFault).2
  | capture | rdsnap | rdstat => exact .inl rfl
  | reset => exact .inr (.inl rfl)

theorem toNat_checksumOf (w : Window) : (checksumOf w).toNat = sumNat w % 256 := by
  simp [checksumOf, byteSum, sumNat, Config.csumMod]

theorem toNat_distanceOf (w : Window) : (distanceOf w).toNat = w[2].toNat + 256 * w[3].toNat :=
  (toNat_littleEndian ..).trans (by rw [Nat.mul_comm])

theorem toNat_strengthOf (w : Window) : (strengthOf w).toNat = w[4].toNat + 256 * w[5].toNat :=
  (toNat_littleEndian ..).trans (by rw [Nat.mul_comm])

theorem toNat_rawTempOf (w : Window) : (rawTempOf w).toNat = w[6].toNat + 256 * w[7].toNat :=
  (toNat_littleEndian ..).trans (by rw [Nat.mul_comm])

/-! ### The running checksum -/

/-- R24 (c): the accumulator is the sum of the bytes below `fill`. -/
theorem toNat_acc : s.acc.toNat = (∑ i : Fin 9, if i.val < s.fill.val then s.win[i].toNat else 0) % 256 := by
  have hbytes : s.win.toList.map BitVec.toNat = List.ofFn fun i : Fin 9 => s.win[i].toNat := by
    refine List.ext_getElem (by rw [List.length_map, List.length_ofFn, Vector.length_toList]) fun i _ _ => ?_
    rw [List.getElem_map, List.getElem_ofFn, Vector.getElem_toList]
    rfl
  have hsum := List.sum_take_ofFn (fun i : Fin 9 => s.win[i].toNat) s.fill.val
  rw [Finset.sum_filter, ← hbytes, ← List.map_take] at hsum
  rw [State.acc, hsum, BitVec.toNat_ofNat]
  exact Nat.mod_mod _ _

variable {s v} {t : State}

/-- A byte that is held adds itself (R131). -/
theorem acc_of_held (hwin : t.win = s.win.set s.fill v) (hfill : t.fill.val = s.fill.val + 1) :
    t.acc = s.acc + v := by
  have htake : t.win.toList.take t.fill.val = s.win.toList.take s.fill.val ++ [v] := by
    have hlen : s.fill.val < (s.win.toList.set s.fill.val v).length := by simp
    rw [hwin, hfill, Vector.toList_set, ← List.take_concat_get' _ _ hlen, List.getElem_set_self,
      List.take_set_of_le (Nat.le_refl _)]
  apply BitVec.eq_of_toNat_eq
  simp [State.acc, htake, Config.csumMod]

theorem acc_of_empty (hfill : t.fill = 0) : t.acc = 0#8 := by
  simp [State.acc, hfill]

/-- Where a byte raises `fill`, it is put in the first free place of the window (R110 to R112). -/
theorem consumeByte_win_of_fill_succ (hr : s.run = .run) (h : (s.consumeByte v).fill.val = s.fill.val + 1) :
    (s.consumeByte v).win = s.win.set s.fill v := by
  rcases consumeByte_cases s v with ⟨hr', -⟩ | ⟨-, hf, hc⟩ | ⟨-, hf, hc⟩ | ⟨-, hf, hc⟩ | ⟨-, -, -, hc⟩
  · exact absurd hr hr'
  · by_cases hv : v = 0x59#8
    · rw [hc, hunt0_header hv]
      simp [hf]
    · rw [hc, hunt0_noise hv] at h
      simp at h
  · by_cases hv : v = 0x59#8
    · rw [hc, hunt1_header hv]
      simp [hf]
    · rw [hc, hunt1_false_start hv] at h
      simp at h
  · rw [hc, State.ninth, conclude_fill] at h
    simp at h
  · rw [hc, State.collect_win]

end Sys2Proof.Machine
end

section
open Sys2Proof Sys2Proof.Machine Sys2Proof.Claims

/-- Settles O26: the accepting evaluation of the window says everything the statement asks of the frame. -/
theorem storeWrittenOnlyByPublish : Obligations.StoreWrittenOnlyByPublish := by
  unfold Obligations.StoreWrittenOnlyByPublish
  intro i s t hexec
  cases (exec_eq_perform i s).symm.trans hexec
  refine (perform_store_cases s i).imp_right (Or.imp_right ?_)
  rintro ⟨hstream, hrun, hfill, v, haccept, hpublish⟩
  obtain ⟨hcsum, hstr, hintf, hsatA, hsatB⟩ := evaluate_accept haccept
  rw [BitVec.toNat_ne, toNat_distanceOf] at hintf hsatA hsatB
  have hsum : sumNat s.win % 256 = (s.win.set 8 v)[8].toNat := by
    rw [← toNat_checksumOf, hcsum, Vector.getElem_set_self]
  rw [hpublish]
  exact ⟨hstream, hrun, hfill, hsum, toNat_strengthOf s.win ▸ hstr, hintf, hsatA, hsatB, rfl, toNat_distanceOf s.win,
    toNat_strengthOf s.win, ⟨rawTempOf s.win, toNat_rawTempOf s.win, rfl⟩, rfl, rfl⟩

/-- Settles O31: only the terminal symbols and `RESET` write `run`. -/
theorem runMovesOnlyByTerminalSymbolsAndReset : Obligations.RunMovesOnlyByTerminalSymbolsAndReset := by
  unfold Obligations.RunMovesOnlyByTerminalSymbolsAndReset
  intro i s t hexec
  cases (exec_eq_perform i s).symm.trans hexec
  cases i with
  | byte v | byteHunt0 v | byteHunt1 v | byteCollect v | byteNinth v => exact .inl (consumeByte_frame s v).1
  | accept f | rejCsum f | rejWeak f | rejSat f | rejIntf f => exact .inl (consumeByte_frame s f.csum).1
  | eos =>
    by_cases hr : s.run = .run
    · exact .inr (.inl ⟨rfl, hr, congrArg State.run (terminate_streamClosed hr)⟩)
    · exact .inl (congrArg State.run (terminate_stopped .streamClosed hr))
  | fault =>
    by_cases hr : s.run = .run
    · exact .inr (.inr (.inl ⟨rfl, hr, congrArg State.run (terminate_transportFault hr)⟩))
    · exact .inl (congrArg State.run (terminate_stopped .transportFault hr))
  | capture | rdsnap | rdstat => exact .inl rfl
  | reset => exact .inr (.inr (.inr ⟨rfl, rfl⟩))

/-- Settles O39: a capture writes its own register only, and no other operation but `RESET` writes one. -/
theorem snapshotChangesOnlyOnCapture : Obligations.SnapshotChangesOnlyOnCapture := by
  unfold Obligations.SnapshotChangesOnlyOnCapture
  intro i s t r hexec hcapture hreset
  cases (exec_eq_perform i s).symm.trans hexec
  cases i with
  | byte v | byteHunt0 v | byteHunt1 v | byteCollect v | byteNinth v =>
    exact congrArg (·[r]) (consumeByte_frame s v).2
  | accept f | rejCsum f | rejWeak f | rejSat f | rejIntf f => exact congrArg (·[r]) (consumeByte_frame s f.csum).2
  | eos => exact congrArg (·[r]) (terminate_frame s .streamClosed).1
  | fault => exact congrArg (·[r]) (terminate_frame s .transportFault).1
  | capture r' => exact captureInto_snap_ne s fun h => hcapture (congrArg Instr.capture h)
  | rdsnap | rdstat => rfl
  | reset => exact absurd rfl hreset

/-- Settles O54: a byte that raises `fill` is put in the window where the sum goes on. -/
theorem runningChecksumIsTheSum : Obligations.RunningChecksumIsTheSum := by
  unfold Obligations.RunningChecksumIsTheSum
  intro s
  refine ⟨toNat_acc s, fun hf => ?_, fun v hr => ⟨s.consumeByte v, rfl, fun h => ?_, acc_of_empty⟩⟩
  · rw [toNat_acc, hf]
    simp [Fin.sum_univ_succ, sumNat, Nat.add_assoc]
  · exact acc_of_held (consumeByte_win_of_fill_succ hr h) h

/-- Settles O3: read off the reset state; the two vectors repeat one value. -/
theorem resetStateValues : Obligations.ResetStateValues :=
  ⟨rfl, rfl, rfl, rfl, rfl, rfl, rfl, rfl, fun _ => Vector.getElem_replicate .., fun _ => Vector.getElem_replicate ..,
    rfl, rfl, rfl⟩

/-- Settles O1: `RESET` leaves the elements of the block as the reset state has them. -/
theorem resetClearsTheBlock : Obligations.ResetClearsTheBlock := by
  unfold Obligations.ResetClearsTheBlock
  intro s
  obtain ⟨hfill, hrun, hskip, hcsum, hweak, hsat, hintf, hstore, hsnap, hwin, hlevels⟩ := resetStateValues
  exact ⟨s.resetBlock, rfl, hfill, hrun, hwin, hskip, hcsum, hweak, hsat, hintf, hstore, hsnap, hlevels⟩

end

section
/-!
SUPPORT. The operation a slot asks for and what the slot leaves: everything a stream byte writes in `RUN`, the
list of publishes, the time input, the label; and the generations along the list of publishes.
-/
namespace Sys2Proof.Machine

open Sys2Proof.Claims

/-! ### The operation a slot asks for -/

/-- A step executes what the event at the head of the listing decodes to (R56). -/
theorem step_of_offered {s : State} {slot : Slot} {rest : List Slot} {i : Instr} (h : s.inputs = slot :: rest)
    (hi : decodeEvent slot.event = some i) : step s = exec i { s with inputs := rest, now := slot.now } := by
  unfold step
  rw [fetch_cons h, hi]

theorem getLsbD_eq_true_iff {w : Nat} (x : BitVec w) (k : Nat) : x.getLsbD k = true ↔ x.toNat / 2 ^ k % 2 = 1 := by
  rw [BitVec.getLsbD, Nat.testBit_eq_decide_div_mod_eq, decide_eq_true_eq]

/-- `err` and `eos` stand above the data of a symbol (R86): the words of `BYTE` are those below 256. -/
theorem decodeSymbol_cases (sym : BitVec 10) :
    (sym.toNat < 256 ∧ ∃ v, decodeSymbol sym = .byte v) ∨
    (256 ≤ sym.toNat ∧ (decodeSymbol sym = .eos ∨ decodeSymbol sym = .fault)) := by
  have hlt := sym.isLt
  unfold decodeSymbol
  simp only [getLsbD_eq_true_iff]
  split
  · exact .inr ⟨by omega, .inr rfl⟩
  · split
    · exact .inr ⟨by omega, .inl rfl⟩
    · exact .inl ⟨by omega, _, rfl⟩

/-- `cap` stands above the word index of a command (R88): the words of `CAPTURE` are those from 16 on. -/
theorem decodeCommand_cases (r : PortId) (cmd : BitVec 5) :
    (16 ≤ cmd.toNat ∧ decodeCommand r cmd = .capture r) ∨
    (cmd.toNat < 16 ∧ ∃ k : BitVec 4, k.toNat = cmd.toNat ∧
      (decodeCommand r cmd = .rdsnap r k ∨ decodeCommand r cmd = .rdstat r k)) := by
  have hlt := cmd.isLt
  unfold decodeCommand
  simp only [getLsbD_eq_true_iff]
  split
  · exact .inl ⟨by omega, rfl⟩
  · refine .inr ⟨by omega, cmd.extractLsb' 0 4, ?_, ?_⟩
    · rw [BitVec.extractLsb'_toNat]
      omega
    · split
      · exact .inr rfl
      · exact .inl rfl

@[simp] theorem decodeSymbol_byteSymbol (v : Byte) : decodeSymbol (byteSymbol v) = .byte v := by
  have hv := v.isLt
  have hsym := toNat_byteSymbol v
  simp only [decodeSymbol, getLsbD_eq_true_iff, hsym]
  rw [if_neg (by omega), if_neg (by omega)]
  refine congrArg _ (BitVec.eq_of_toNat_eq ?_)
  rw [BitVec.extractLsb'_toNat, hsym]
  omega

/-! ### What a slot leaves -/

section Byte
variable (s : State) (v : Byte)

/-- In `RUN` a byte is counted and has its label; unless it is the ninth it writes nothing else but the window,
`fill` and the count of skipped bytes (R97, R110 to R112, R119). -/
theorem consumeByte_running (hr : s.run = .run) :
    (∃ w n k l, s.consumeByte v =
      { s with win := w, fill := n, nSkip := k, pos := s.pos + 1, out := .label l :: s.out }) ∨
    (s.fill = 8 ∧ s.consumeByte v = s.ninth v) := by
  rcases consumeByte_cases s v with ⟨hr', -⟩ | ⟨-, -, h⟩ | ⟨-, -, h⟩ | ⟨-, hf, h⟩ | ⟨-, -, -, h⟩
  · exact absurd hr hr'
  · by_cases hv : v = 0x59#8
    · exact .inl ⟨_, _, _, _, h.trans (hunt0_header hv)⟩
    · exact .inl ⟨_, _, _, _, h.trans (hunt0_noise hv)⟩
  · by_cases hv : v = 0x59#8
    · exact .inl ⟨_, _, _, _, h.trans (hunt1_header hv)⟩
    · exact .inl ⟨_, _, _, _, h.trans (hunt1_false_start hv)⟩
  · exact .inr ⟨hf, h⟩
  · exact .inl ⟨_, _, _, _, h⟩

theorem conclude_out (f : Frame) (o : FrameOutcome) : ∃ l, (s.conclude f o).out = .label l :: s.out := by
  cases o <;> exact ⟨_, rfl⟩

@[simp] theorem conclude_now (f : Frame) (o : FrameOutcome) : (s.conclude f o).now = s.now := by
  cases o <;> rfl

/-- A byte consumed in `RUN` raises `pos` and has one label (R24 (a), R97). -/
theorem consumeByte_counted (hr : s.run = .run) :
    (s.consumeByte v).pos = s.pos + 1 ∧ ∃ l, (s.consumeByte v).out = .label l :: s.out := by
  rcases consumeByte_running s v hr with ⟨w, n, k, l, h⟩ | ⟨-, h⟩ <;> rw [h]
  · exact ⟨rfl, l, rfl⟩
  · exact ⟨conclude_pos .., conclude_out (s.takeNinth v) ..⟩

theorem consumeByte_now : (s.consumeByte v).now = s.now := by
  by_cases hr : s.run = .run
  · rcases consumeByte_running s v hr with ⟨w, n, k, l, h⟩ | ⟨-, h⟩ <;> rw [h]
    exact conclude_now ..
  · rw [consumeByte_stopped hr]

/-- A byte leaves the list of publishes alone or puts the record it leaves in the store at its head (R57). -/
theorem consumeByte_published :
    (s.consumeByte v).published = s.published ∨
    (s.consumeByte v).published = (s.consumeByte v).store :: s.published := by
  by_cases hr : s.run = .run
  · rcases consumeByte_running s v hr with ⟨w, n, k, l, h⟩ | ⟨-, h⟩ <;> rw [h]
    · exact .inl rfl
    · rcases ninth_store_cases s v with ⟨-, hpublish⟩ | ⟨-, hpub⟩
      · exact .inr (by rw [hpublish]; rfl)
      · exact .inl hpub
  · exact .inl (by rw [consumeByte_stopped hr])

end Byte

section Slot
variable (s : State)

/-- A terminal symbol in `RUN` ends the loop, with its label; nothing else is written (R150, R151). -/
theorem terminate_running (c : Terminal) (hr : s.run = .run) :
    ∃ q l, q ≠ .run ∧ s.terminate c = { s with run := q, out := .label l :: s.out } := by
  cases c with
  | streamClosed => exact ⟨.closed, .closed, nofun, terminate_streamClosed hr⟩
  | transportFault => exact ⟨.fatal, .fatal, nofun, terminate_transportFault hr⟩

theorem terminate_now_published (c : Terminal) :
    (s.terminate c).now = s.now ∧ (s.terminate c).published = s.published := by
  by_cases hr : s.run = .run
  · obtain ⟨q, l, -, h⟩ := terminate_running s c hr
    rw [h]
    exact ⟨rfl, rfl⟩
  · rw [terminate_stopped c hr]
    exact ⟨rfl, rfl⟩

/-- No operation writes the time input (R29). -/
theorem perform_now (i : Instr) : (s.perform i).now = s.now := by
  cases i with
  | byte v | byteHunt0 v | byteHunt1 v | byteCollect v | byteNinth v => exact consumeByte_now s v
  | accept f | rejCsum f | rejWeak f | rejSat f | rejIntf f => exact consumeByte_now s f.csum
  | eos => exact (terminate_now_published s .streamClosed).1
  | fault => exact (terminate_now_published s .transportFault).1
  | capture | rdsnap | rdstat | reset => rfl

/-- Only `RESET` shortens the list of publishes (R58). -/
theorem perform_published {i : Instr} (hi : i ≠ .reset) :
    (s.perform i).published = s.published ∨ (s.perform i).published = (s.perform i).store :: s.published := by
  cases i with
  | byte v | byteHunt0 v | byteHunt1 v | byteCollect v | byteNinth v => exact consumeByte_published s v
  | accept f | rejCsum f | rejWeak f | rejSat f | rejIntf f => exact consumeByte_published s f.csum
  | eos => exact .inl (terminate_now_published s .streamClosed).2
  | fault => exact .inl (terminate_now_published s .transportFault).2
  | capture | rdsnap | rdstat => exact .inl rfl
  | reset => exact absurd rfl hi

/-- What a symbol does in `RUN` (R65): it has a label; below 256 it is a byte and counted, from 256 on it ends
the loop. -/
theorem perform_symbol (sym : BitVec 10) (hr : s.run = .run) :
    (∃ l, (s.perform (decodeSymbol sym)).out = .label l :: s.out) ∧
    (sym.toNat < 256 → (s.perform (decodeSymbol sym)).pos = s.pos + 1) ∧
    (256 ≤ sym.toNat → (s.perform (decodeSymbol sym)).run ≠ .run) := by
  rcases decodeSymbol_cases sym with ⟨hlt, v, hv⟩ | ⟨hge, hterm⟩
  · obtain ⟨hpos, hlabel⟩ := consumeByte_counted s v hr
    rw [hv]
    exact ⟨hlabel, fun _ => hpos, fun hge => absurd hge (Nat.not_le_of_lt hlt)⟩
  · obtain ⟨c, hc⟩ : ∃ c, s.perform (decodeSymbol sym) = s.terminate c := by
      rcases hterm with h | h <;> rw [h]
      · exact ⟨.streamClosed, rfl⟩
      · exact ⟨.transportFault, rfl⟩
    obtain ⟨q, l, hq, hend⟩ := terminate_running s c hr
    rw [hc, hend]
    exact ⟨⟨l, rfl⟩, fun hlt => absurd hge (Nat.not_le_of_lt hlt), fun _ => hq⟩

/-- A capture leaves the store in its own register (R54). -/
theorem captureInto_snap_self (r : PortId) : (s.captureInto r).snap[r] = s.store :=
  Vector.getElem_set_self r.isLt

/-- What a command does in every run state (R160 to R162): from 16 on a capture, below a read of its word. -/
theorem perform_command (r : PortId) (cmd : BitVec 5) :
    (16 ≤ cmd.toNat → (s.perform (decodeCommand r cmd)).snap[r] = s.store) ∧
    (cmd.toNat < 16 → ∃ (k : BitVec 4) (w : Word), k.toNat = cmd.toNat ∧
      (s.perform (decodeCommand r cmd)).out = .read r k w :: s.out) := by
  rcases decodeCommand_cases r cmd with ⟨hge, h⟩ | ⟨hlt, k, hk, h⟩
  · rw [h]
    exact ⟨fun _ => captureInto_snap_self s r, fun hlt => absurd hge (Nat.not_le_of_lt hlt)⟩
  · refine ⟨fun hge => absurd hge (Nat.not_le_of_lt hlt), fun _ => ⟨k, s.regRead r k, hk, ?_⟩⟩
    rcases h with h | h <;> rw [h] <;> rfl

theorem takeSlot_now (slot : Slot) : (s.takeSlot slot).now = slot.now := by
  unfold State.takeSlot
  cases decodeEvent slot.event with
  | none => rfl
  | some i => exact perform_now { s with now := slot.now } i

/-- A slot with an event is dealt with by the operation it decodes to, at the slot's time. -/
theorem takeSlot_of_decode {slot : Slot} {i : Instr} (hi : decodeEvent slot.event = some i) :
    s.takeSlot slot = State.perform { s with now := slot.now } i := by
  unfold State.takeSlot
  rw [hi]

end Slot

/-! ### A byte does not see the snapshots -/

/-- The state with other snapshots. -/
def State.withSnap (s : State) (m : Vector Record Config.nr) : State := { s with snap := m }

section Snap
variable (s : State) (m : Vector Record Config.nr) (v : Byte)

theorem hunt0_withSnap : (s.withSnap m).hunt0 v = (s.hunt0 v).withSnap m := by
  unfold State.hunt0
  split <;> rfl

theorem hunt1_withSnap : (s.withSnap m).hunt1 v = (s.hunt1 v).withSnap m := by
  unfold State.hunt1
  split <;> rfl

theorem conclude_withSnap (f : Frame) (o : FrameOutcome) :
    (s.withSnap m).conclude f o = (s.conclude f o).withSnap m := by
  cases o <;> rfl

/-- What the readers hold makes no difference to a byte, and no byte changes it (R163, R183). -/
theorem consumeByte_withSnap : (s.withSnap m).consumeByte v = (s.consumeByte v).withSnap m := by
  let u := s.withSnap m
  rcases consumeByte_cases s v with ⟨hr, h⟩ | ⟨hr, hf, h⟩ | ⟨hr, hf, h⟩ | ⟨hr, hf, h⟩ | ⟨hr, h2, h7, h⟩ <;>
    rw [h]
  · exact consumeByte_stopped (s := u) hr
  · exact (consumeByte_hunt0 (s := u) hr hf).trans (hunt0_withSnap s m v)
  · exact (consumeByte_hunt1 (s := u) hr hf).trans (hunt1_withSnap s m v)
  · exact (consumeByte_ninth (s := u) hr hf).trans (conclude_withSnap (s.takeNinth v) m ..)
  · exact consumeByte_collect (s := u) hr h2 h7

end Snap

/-! ### Generations along the list of publishes -/

/-- The record at place `i` of `n` publishes, newest first, is the one that left `gen = n - i` modulo 2^32 (R57). -/
theorem gen_of_numbered {l : List Record} (h : Numbered l) {i : Nat} {x : Record} (hx : l[i]? = some x) :
    x.gen = BitVec.ofNat 32 (l.length - i) := by
  induction l generalizing i with
  | nil => cases hx
  | cons y rest ih =>
    obtain ⟨-, -, hgen, hrest⟩ := h
    cases i with
    | zero => cases hx; exact hgen
    | succ i =>
      rw [List.length_cons, Nat.add_sub_add_right]
      exact ih hrest hx

/-- Two publishes have equal generations exactly if their places are congruent modulo 2^32 (R59). -/
theorem gen_eq_iff_of_numbered {l : List Record} (h : Numbered l) {i j : Nat} {x y : Record}
    (hx : l[i]? = some x) (hy : l[j]? = some y) : x.gen = y.gen ↔ i % 2 ^ 32 = j % 2 ^ 32 := by
  obtain ⟨hi, -⟩ := List.getElem?_eq_some_iff.mp hx
  obtain ⟨hj, -⟩ := List.getElem?_eq_some_iff.mp hy
  rw [gen_of_numbered h hx, gen_of_numbered h hy, ← BitVec.toNat_inj, BitVec.toNat_ofNat, BitVec.toNat_ofNat]
  omega

/-- Where anything was published, the store is the newest record (R57). -/
theorem State.Inv.store_of_published {s : State} (hs : s.Inv) {x : Record} {older : List Record}
    (h : s.published = x :: older) : s.store = x := by
  rw [hs.storeIsLast, h]
  rfl

/-- Publishes fewer than 2^32 apart with equal generations are the same one. -/
theorem State.Inv.eq_of_gen_eq {s : State} (hs : s.Inv) {i j : Nat} {x y : Record} (hx : s.published[i]? = some x)
    (hy : s.published[j]? = some y) (hij : i < j + 2 ^ 32) (hji : j < i + 2 ^ 32) (hgen : x.gen = y.gen) :
    x = y := by
  have hplace := (gen_eq_iff_of_numbered hs.history hx hy).mp hgen
  obtain rfl : i = j := by omega
  exact Option.some.inj (hx.symm.trans hy)

end Sys2Proof.Machine
end

section
open Sys2Proof Sys2Proof.Machine Sys2Proof.Claims

/-- Settles O37: a capture copies the store, which is the head of the list of publishes, or unset. -/
theorem captureSeesLastPublish : Obligations.CaptureSeesLastPublish := by
  unfold Obligations.CaptureSeesLastPublish
  intro s r hs
  refine ⟨s.captureInto r, rfl, fun hnone => ?_, fun x older hpub => ?_⟩
  · rw [captureInto_snap_self, hs.storeIsLast, hnone]
    rfl
  · have hnum := hs.history
    rw [hpub] at hnum
    obtain ⟨hvalid, -, hgen, -⟩ := hnum
    exact ⟨(captureInto_snap_self s r).trans (hs.store_of_published hpub), hvalid, hgen⟩

/-- Settles O41: generations number the places of the list modulo 2^32, and the store stands at place 0. -/
theorem equalGenerationsSameRecord : Obligations.EqualGenerationsSameRecord := by
  unfold Obligations.EqualGenerationsSameRecord
  intro s hs
  have hstore : s.published ≠ [] → s.published[0]? = some s.store := fun hne => by
    obtain ⟨x, older, hpub⟩ := List.exists_cons_of_ne_nil hne
    rw [hs.store_of_published hpub, hpub]
    rfl
  refine ⟨fun i j x y hx hy => ?_, fun r hvalid => ?_, fun hvalid => hstore fun hnone => ?_,
    fun r r' i j hi hj hij hji hgen => hs.eq_of_gen_eq hi hj hij hji hgen, fun r i hi hbound hgen => ?_⟩
  · rw [gen_eq_iff_of_numbered hs.history hx hy]
    omega
  · rcases hs.snapsPublished r with hunset | hmem
    · rw [hunset] at hvalid
      cases hvalid
    · exact List.mem_iff_getElem?.mp hmem
  · rw [hs.storeIsLast, hnone] at hvalid
    cases hvalid
  · have hne : s.published ≠ [] := fun hnone => by simp [hnone] at hi
    exact hs.eq_of_gen_eq hi (hstore hne) (by omega) (by omega) hgen

/-- Settles O42: only an accepted ninth byte publishes, and it writes the store with the same record. -/
theorem publishesOnlyGrow : Obligations.PublishesOnlyGrow := by
  unfold Obligations.PublishesOnlyGrow
  intro i s t hexec hreset
  cases (exec_eq_perform i s).symm.trans hexec
  exact perform_published s hreset

/-- Settles O51: the step takes the head of the listing, and each kind of event is dealt with by its own
operation at once. -/
theorem stepAlwaysAnswers : Obligations.StepAlwaysAnswers := by
  unfold Obligations.StepAlwaysAnswers
  intro s
  cases hi : s.inputs with
  | nil =>
    rcases step_cases s with h | ⟨slot, l, b, h⟩ <;> exact ⟨_, h, nofun⟩
  | cons slot rest =>
    have hstep := step_listing s rest s.beyond slot
    rw [← hi, withSource_self] at hstep
    refine ⟨_, hstep, ?_⟩
    rintro _ _ ⟨⟩
    refine ⟨rfl, rfl, takeSlot_now s slot, fun sym hsym hr => ?_, fun r cmd hcmd => ?_, fun hrst => ?_⟩
    · rw [takeSlot_of_decode s (i := decodeSymbol sym) (congrArg decodeEvent hsym)]
      exact perform_symbol { s with now := slot.now } sym hr
    · rw [takeSlot_of_decode s (i := decodeCommand r cmd) (congrArg decodeEvent hcmd)]
      exact perform_command { s with now := slot.now } r cmd
    · rw [takeSlot_of_decode s (i := .reset) (congrArg decodeEvent hrst)]
      exact ⟨rfl, rfl, rfl⟩

/-- Settles O52: the capture comes first (R73), and the byte neither sees nor writes the snapshots. -/
theorem coincidentCaptureSeesOldStore : Obligations.CoincidentCaptureSeesOldStore := by
  unfold Obligations.CoincidentCaptureSeesOldStore
  intro s n r v
  let before : State := { s with now := n }
  let captured := s.snap.set r s.store
  have hcapture : s.takeSlot ⟨n, .command r captureCommand⟩ = before.withSnap captured := rfl
  have hdecode : decodeEvent (.stream (byteSymbol v)) = some (.byte v) := congrArg some (decodeSymbol_byteSymbol v)
  have hbyte : (before.withSnap captured).takeSlot ⟨n, .stream (byteSymbol v)⟩ =
      (before.consumeByte v).withSnap captured :=
    (takeSlot_of_decode _ (i := .byte v) hdecode).trans (consumeByte_withSnap before captured v)
  have hrun := runSteps_listing s s.inputs s.beyond [⟨n, .command r captureCommand⟩, ⟨n, .stream (byteSymbol v)⟩] 0
  rw [List.foldl_cons, List.foldl_cons, List.foldl_nil, hcapture, hbyte] at hrun
  exact ⟨_, before.consumeByte v, hrun, rfl, captureInto_snap_self s r, rfl, rfl, rfl, rfl⟩

/-- Settles O49: the head of the listing is the event the step executes. -/
theorem stepRunsOfferedEvent : Obligations.StepRunsOfferedEvent := by
  unfold Obligations.StepRunsOfferedEvent
  intro s n rest
  exact ⟨fun _ h => step_of_offered h rfl, fun _ _ h => step_of_offered h rfl, fun h => step_of_offered h rfl⟩

/-- Settles O53: of an edge with `rst` only the reset is offered. -/
theorem resetWinsTheEdge : Obligations.ResetWinsTheEdge := by
  unfold Obligations.ResetWinsTheEdge
  intro s n sym cmds
  exact step_of_offered (slot := ⟨n, .rst⟩) rfl rfl

end

section
/-!
SUPPORT. What the decoder reads from each word: the bits of a symbol, of a command and of a frame, the
decoder on every port, and the word of a frame as the inverse of its fields.
-/
namespace Sys2Proof

open Sys2Proof.Machine

/-! ### Symbols and commands -/

section Mask
variable {w : Nat} {x m : BitVec w}

/-- A bit that a mask selects is the bit of the match (R86, R88). -/
theorem getLsbD_of_mask {y : BitVec w} (h : x &&& m = y) {k : Nat} (hk : m.getLsbD k = true) :
    x.getLsbD k = y.getLsbD k := by
  rw [← h, BitVec.getLsbD_and, hk, Bool.and_true]

end Mask

section Symbol
variable {sym : BitVec 10}

theorem decodeSymbol_err (herr : sym.getLsbD 9 = true) : decodeSymbol sym = .fault := if_pos herr

theorem decodeSymbol_eos (herr : sym.getLsbD 9 = false) (heos : sym.getLsbD 8 = true) : decodeSymbol sym = .eos := by
  rw [decodeSymbol, herr, heos]
  rfl

/-- Without `err` and `eos` the data is the whole symbol as a number (R86). -/
theorem decodeSymbol_data (herr : sym.getLsbD 9 = false) (heos : sym.getLsbD 8 = false) :
    ∃ v, decodeSymbol sym = .byte v ∧ v.toNat = sym.toNat := by
  refine ⟨sym.extractLsb' 0 8, by rw [decodeSymbol, herr, heos]; rfl, ?_⟩
  rw [← Bool.not_eq_true, getLsbD_eq_true_iff] at herr heos
  have := sym.isLt
  rw [BitVec.extractLsb'_toNat]
  omega

end Symbol

section Command
variable {r : PortId} {cmd : BitVec 5}

theorem decodeCommand_cap (hcap : cmd.getLsbD 4 = true) : decodeCommand r cmd = .capture r := if_pos hcap

/-- Without `cap` the word index is the whole command as a number (R88). -/
theorem toNat_wordIndex (hcap : cmd.getLsbD 4 = false) : (cmd.extractLsb' 0 4).toNat = cmd.toNat := by
  rw [← Bool.not_eq_true, getLsbD_eq_true_iff] at hcap
  have := cmd.isLt
  rw [BitVec.extractLsb'_toNat]
  omega

theorem decodeCommand_snap (hcap : cmd.getLsbD 4 = false) (hk : cmd.getLsbD 3 = false) :
    decodeCommand r cmd = .rdsnap r (cmd.extractLsb' 0 4) := by
  rw [decodeCommand, hcap, hk]
  rfl

theorem decodeCommand_stat (hcap : cmd.getLsbD 4 = false) (hk : cmd.getLsbD 3 = true) :
    decodeCommand r cmd = .rdstat r (cmd.extractLsb' 0 4) := by
  rw [decodeCommand, hcap, hk]
  rfl

/-- The command of word `k` reads word `k`, by the row that its top bit picks (R88). -/
theorem decodeCommand_readCommand (k : BitVec 4) :
    decodeCommand r (readCommand k) = if k.toNat < 8 then .rdsnap r k else .rdstat r k := by
  have hlt := k.isLt
  have hcap : (readCommand k).getLsbD 4 = false := by
    rw [← Bool.not_eq_true, getLsbD_eq_true_iff, toNat_readCommand]
    omega
  have hindex : (readCommand k).extractLsb' 0 4 = k :=
    BitVec.eq_of_toNat_eq ((toNat_wordIndex hcap).trans (toNat_readCommand k))
  have hbit := getLsbD_eq_true_iff (readCommand k) 3
  rw [toNat_readCommand] at hbit
  by_cases hk : k.toNat < 8
  · rw [if_pos hk, decodeCommand_snap hcap (by rw [← Bool.not_eq_true, hbit]; omega), hindex]
  · rw [if_neg hk, decodeCommand_stat hcap (hbit.mpr (by omega)), hindex]

end Command

/-! ### Frames -/

section Frame
variable {w : BitVec 72} {f : Frame}

theorem toNat_byteAt (w : BitVec 72) (k : Nat) : (w.extractLsb' k 8).toNat = w.toNat / 2 ^ k % 256 := by
  rw [BitVec.extractLsb'_toNat, Nat.shiftRight_eq_div_pow]

/-- The header as mask and match of the top 16 bits (R81). -/
theorem header_iff :
    (w.extractLsb' 64 8 = Config.hdr0 ∧ w.extractLsb' 56 8 = Config.hdr1) ↔ w.toNat / 2 ^ 56 = 0x5959 := by
  have := w.isLt
  rw [← BitVec.toNat_inj, ← BitVec.toNat_inj, toNat_byteAt, toNat_byteAt]
  simp only [Config.hdr0, Config.hdr1, BitVec.toNat_ofNat]
  omega

theorem header_frameWord (f : Frame) : (frameWord f).toNat / 2 ^ 56 = 0x5959 := by
  have hd := f.dist.isLt
  have hs := f.str.isLt
  have hr := f.raw.isLt
  have hc := f.csum.isLt
  rw [toNat_frameWord]
  simp only [toNat_lowByte, toNat_highByte]
  omega

/-- A word with the header is the word of its own fields: no bit of a frame is dropped (R81, R82). -/
theorem frameWord_frameFields (h : w.toNat / 2 ^ 56 = 0x5959) : frameWord (frameFields w) = w := by
  apply BitVec.eq_of_toNat_eq
  rw [toNat_frameWord]
  simp only [frameFields, lowByte_littleEndian, highByte_littleEndian, toNat_byteAt]
  omega

/-- The fields read from the word of a frame are the frame's (R81, R82). -/
theorem frameFields_frameWord (f : Frame) : frameFields (frameWord f) = f := by
  have hword := toNat_frameWord f
  have hc := f.csum.isLt
  have hd0 := (lowByte f.dist).isLt
  have hd1 := (highByte f.dist).isLt
  have hs0 := (lowByte f.str).isLt
  have hs1 := (highByte f.str).isLt
  have hr0 := (lowByte f.raw).isLt
  have hr1 := (highByte f.raw).isLt
  have byteAt {k : Nat} {b : Byte} (h : (frameWord f).toNat / 2 ^ k % 256 = b.toNat) :
      (frameWord f).extractLsb' k 8 = b := BitVec.eq_of_toNat_eq ((toNat_byteAt ..).trans h)
  rw [frameFields, byteAt (b := lowByte f.dist) (by omega), byteAt (b := highByte f.dist) (by omega),
    byteAt (b := lowByte f.str) (by omega), byteAt (b := highByte f.str) (by omega),
    byteAt (b := lowByte f.raw) (by omega), byteAt (b := highByte f.raw) (by omega),
    byteAt (b := f.csum) (by omega), littleEndian_low_high, littleEndian_low_high, littleEndian_low_high]

theorem decodeFrame_header (h : w.toNat / 2 ^ 56 = 0x5959) :
    decodeFrame w = .ok (outcomeInstr (frameFields w) (frameOutcome (frameFields w))) := if_pos (header_iff.mpr h)

theorem decodeFrame_noHeader (h : w.toNat / 2 ^ 56 ≠ 0x5959) : decodeFrame w = .error .noHeader :=
  if_neg (mt header_iff.mp h)

theorem decodeFrame_frameWord (f : Frame) : decodeFrame (frameWord f) = .ok (outcomeInstr f (frameOutcome f)) := by
  rw [decodeFrame_header (header_frameWord f), frameFields_frameWord]

/-- A frame row is well-formed exactly if it is the row of its own evaluation (R130). -/
theorem wellFormed_outcomeInstr {o : FrameOutcome} : (outcomeInstr f o).wellFormed = true ↔ frameOutcome f = o := by
  cases o <;> exact decide_eq_true_iff

/-- Every frame row has the word of its frame, whatever the outcome (R81). -/
theorem encode_outcomeInstr (f : Frame) (o : FrameOutcome) :
    encode (outcomeInstr f o) = ⟨.frame, (frameWord f).toNat⟩ := by
  cases o <;> rfl

end Frame

/-! ### The decoder on each port -/

theorem decode_stream (sym : BitVec 10) : decode ⟨.stream, sym.toNat⟩ = .ok (decodeSymbol sym) := by
  simp only [decode, if_pos sym.isLt, BitVec.ofNat_toNat, BitVec.setWidth_eq]

theorem decode_frame (w : BitVec 72) : decode ⟨.frame, w.toNat⟩ = decodeFrame w := by
  simp only [decode, if_pos w.isLt, BitVec.ofNat_toNat, BitVec.setWidth_eq]

theorem decode_reader (r : PortId) (cmd : BitVec 5) :
    decode ⟨.reader r.val, cmd.toNat⟩ = .ok (decodeCommand r cmd) := by
  simp only [decode, dif_pos r.isLt, if_pos cmd.isLt, BitVec.ofNat_toNat, BitVec.setWidth_eq]

/-- Whatever decodes is a symbol, a command on a port that exists, a frame with the row of its evaluation, or
`RESET`. -/
theorem decode_cases {p : PortWord} {i : Instr} (h : decode p = .ok i) :
    (∃ sym, i = decodeSymbol sym) ∨ (∃ r cmd, i = decodeCommand r cmd) ∨
    (∃ f, i = outcomeInstr f (frameOutcome f)) ∨ i = .reset := by
  obtain ⟨port, bits⟩ := p
  cases port with
  | stream =>
    simp only [decode] at h
    split at h
    · exact .inl ⟨_, (Except.ok.inj h).symm⟩
    · cases h
  | reader r =>
    simp only [decode] at h
    split at h
    · split at h
      · exact .inr (.inl ⟨_, _, (Except.ok.inj h).symm⟩)
      · cases h
    · cases h
  | frame =>
    simp only [decode, decodeFrame] at h
    split at h
    · split at h
      · exact .inr (.inr (.inl ⟨_, (Except.ok.inj h).symm⟩))
      · cases h
    · cases h
  | host =>
    simp only [decode] at h
    split at h
    · exact .inr (.inr (.inr (Except.ok.inj h).symm))
    · cases h

/-- The word of a well-formed frame row decodes to that row (R81, R130). -/
theorem decode_encode_outcomeInstr {f : Frame} {o : FrameOutcome} (h : (outcomeInstr f o).wellFormed = true) :
    decode (encode (outcomeInstr f o)) = .ok (outcomeInstr f o) := by
  rw [encode_outcomeInstr, decode_frame, decodeFrame_frameWord, wellFormed_outcomeInstr.mp h]

theorem wellFormed_decodeSymbol (sym : BitVec 10) : (decodeSymbol sym).wellFormed = true := by
  rcases decodeSymbol_cases sym with ⟨-, v, h⟩ | ⟨-, h | h⟩ <;> rw [h] <;> rfl

/-- Each of the two read rows carries the word indices of its own half (R88). -/
theorem wellFormed_decodeCommand (r : PortId) (cmd : BitVec 5) : (decodeCommand r cmd).wellFormed = true := by
  cases hcap : cmd.getLsbD 4 with
  | true => rw [decodeCommand_cap hcap]; rfl
  | false =>
    have hread : cmd = readCommand (cmd.extractLsb' 0 4) :=
      BitVec.eq_of_toNat_eq ((toNat_wordIndex hcap).symm.trans (toNat_readCommand _).symm)
    rw [hread, decodeCommand_readCommand]
    split
    case isTrue hk => exact decide_eq_true hk
    case isFalse hk => exact decide_eq_true (Nat.not_lt.mp hk)

end Sys2Proof
end

section
open Sys2Proof Sys2Proof.Machine Sys2Proof.Claims

/-- Settles O46: the word of each operation is decoded on its own port; a frame comes back whole, and a well-formed
row is the one its evaluation gives. -/
theorem decodeEncodeRoundTrip : Obligations.DecodeEncodeRoundTrip := by
  unfold Obligations.DecodeEncodeRoundTrip
  intro i hwf
  cases i with
  | byte v | byteHunt0 v | byteHunt1 v | byteCollect v | byteNinth v =>
    exact (decode_stream (byteSymbol v)).trans (congrArg _ (decodeSymbol_byteSymbol v))
  | eos | fault => exact decode_stream _
  | accept f => exact decode_encode_outcomeInstr (o := .accept) hwf
  | rejCsum f => exact decode_encode_outcomeInstr (o := .rejCsum) hwf
  | rejWeak f => exact decode_encode_outcomeInstr (o := .rejWeak) hwf
  | rejSat f => exact decode_encode_outcomeInstr (o := .rejSat) hwf
  | rejIntf f => exact decode_encode_outcomeInstr (o := .rejIntf) hwf
  | capture r => exact decode_reader r captureCommand
  | rdsnap r k =>
    exact (decode_reader r (readCommand k)).trans
      (congrArg _ ((decodeCommand_readCommand k).trans (if_pos (of_decide_eq_true hwf))))
  | rdstat r k =>
    exact (decode_reader r (readCommand k)).trans
      (congrArg _ ((decodeCommand_readCommand k).trans (if_neg (Nat.not_lt.mpr (of_decide_eq_true hwf)))))
  | reset => rfl

/-- Settles O45: a word with the header is the word of its fields, and its row the one their evaluation gives. -/
theorem frameWordsDecodeFaithfully : Obligations.FrameWordsDecodeFaithfully := by
  unfold Obligations.FrameWordsDecodeFaithfully
  intro w
  refine ⟨decodeFrame_noHeader, fun h => ⟨_, decodeFrame_header h, wellFormed_outcomeInstr.mpr rfl, ?_⟩⟩
  rw [encode_outcomeInstr, frameWord_frameFields h]

/-- Settles O47: each kind of word decodes to a well-formed operation. -/
theorem decodedIsWellFormed : Obligations.DecodedIsWellFormed := by
  unfold Obligations.DecodedIsWellFormed
  intro p i h
  rcases decode_cases h with ⟨sym, rfl⟩ | ⟨r, cmd, rfl⟩ | ⟨f, rfl⟩ | rfl
  · exact wellFormed_decodeSymbol sym
  · exact wellFormed_decodeCommand r cmd
  · exact wellFormed_outcomeInstr.mpr rfl
  · rfl

/-- Settles O43: a mask leaves `err` and `eos`, or `err` alone, to the match. -/
theorem symbolDecodesByMasks : Obligations.SymbolDecodesByMasks := by
  unfold Obligations.SymbolDecodesByMasks
  intro sym
  exact ⟨fun h => decodeSymbol_err (getLsbD_of_mask h rfl),
    fun h => decodeSymbol_eos (getLsbD_of_mask h rfl) (getLsbD_of_mask h rfl),
    fun h => decodeSymbol_data (getLsbD_of_mask h rfl) (getLsbD_of_mask h rfl)⟩

/-- Settles O44: a mask leaves `cap` and `k[3]`, or `cap` alone, to the match. -/
theorem commandDecodesByMasks : Obligations.CommandDecodesByMasks := by
  unfold Obligations.CommandDecodesByMasks
  intro r cmd
  refine ⟨fun h => decodeCommand_cap (getLsbD_of_mask h rfl), fun h => ?_, fun h => ?_⟩
  · have hcap : cmd.getLsbD 4 = false := getLsbD_of_mask h rfl
    exact ⟨_, decodeCommand_snap hcap (getLsbD_of_mask h rfl), toNat_wordIndex hcap⟩
  · have hcap : cmd.getLsbD 4 = false := getLsbD_of_mask h rfl
    exact ⟨_, decodeCommand_stat hcap (getLsbD_of_mask h rfl), toNat_wordIndex hcap⟩

/-- Settles O48: each word is evaluated by the decoder. -/
theorem specWordsDecode : Obligations.SpecWordsDecode :=
  ⟨rfl, rfl, rfl, rfl, rfl, rfl, rfl, rfl, rfl, rfl⟩

end

section
/-!
SUPPORT. The decode map of `BYTE` (R91): the case that `fill` picks, the frame row that the window's numbers
pick, and what each row does.
-/
namespace Sys2Proof.Machine

open Sys2Proof.Claims

/-! ### The rows of the map -/

section Map
variable {n : Fin 9} {v : Byte}

theorem byteCase_hunt0 (h : n.val = 0) : byteCase n v = .byteHunt0 v := by
  obtain rfl : n = 0 := Fin.ext h
  rfl

theorem byteCase_hunt1 (h : n.val = 1) : byteCase n v = .byteHunt1 v := by
  obtain rfl : n = 1 := Fin.ext h
  rfl

theorem byteCase_collect (h2 : 2 ≤ n.val) (h7 : n.val ≤ 7) : byteCase n v = .byteCollect v := by
  have h0 : n ≠ 0 := by rintro rfl; simp at h2
  have h1 : n ≠ 1 := by rintro rfl; simp at h2
  have h8 : n ≠ 8 := by rintro rfl; simp at h7
  exact (if_neg h0).trans ((if_neg h1).trans (if_neg h8))

theorem byteCase_ninth (h : n.val = 8) : byteCase n v = .byteNinth v := by
  obtain rfl : n = 8 := Fin.ext h
  rfl

theorem byteRow_below (w : Window) (h7 : n.val ≤ 7) : byteRow n w v = byteCase n v := by
  have h8 : n ≠ 8 := by rintro rfl; simp at h7
  exact if_neg h8

theorem byteRow_ninth (w : Window) (h : n.val = 8) : byteRow n w v = outcomeInstr (frameOf w v) (evaluate w v) :=
  if_pos (Fin.ext h)

end Map

/-! ### The evaluation by numbers -/

/-- The tests of R130 in their order, on the fields as numbers. -/
theorem evaluate_eq (w : Window) (v : Byte) : evaluate w v =
    if sumNat w % 256 ≠ v.toNat then .rejCsum
    else if (strengthOf w).toNat < 10 then .rejWeak
    else if (distanceOf w).toNat = 65534 ∨ (distanceOf w).toNat = 65535 then .rejSat
    else if (distanceOf w).toNat = 65532 then .rejIntf
    else .accept := by
  simp only [evaluate, ne_eq, ← BitVec.toNat_inj, toNat_checksumOf]
  rfl

/-- The checksum byte of a frame is right exactly if it is the sum of the first eight bytes (R83, R131). -/
theorem checksumValid_iff (f : Frame) : ChecksumValid f ↔ sumNat (frameWindow f) % 256 = f.csum.toNat := by
  have hsum : sumNat (frameWindow f) = _ := byteSum_frameWindow f
  rw [ChecksumValid, checksumNat, hsum]
  simp only [toNat_lowByte, toNat_highByte]
  omega

/-- The tests of R130 on a frame's own fields. -/
theorem frameOutcome_eq (f : Frame) : frameOutcome f =
    if sumNat (frameWindow f) % 256 ≠ f.csum.toNat then .rejCsum
    else if f.str.toNat < 10 then .rejWeak
    else if f.dist.toNat = 65534 ∨ f.dist.toNat = 65535 then .rejSat
    else if f.dist.toNat = 65532 then .rejIntf
    else .accept := by
  have hstr : strengthOf (frameWindow f) = f.str := congrArg Frame.str (frameOf_frameWindow f)
  have hdist : distanceOf (frameWindow f) = f.dist := congrArg Frame.dist (frameOf_frameWindow f)
  rw [frameOutcome, evaluate_eq, hstr, hdist]

/-- A valid frame that passes the filter is accepted (R142). -/
theorem frameOutcome_accept {f : Frame} (hvalid : ChecksumValid f) (hstr : 10 ≤ f.str.toNat)
    (hintf : f.dist.toNat ≠ 65532) (hsatA : f.dist.toNat ≠ 65534) (hsatB : f.dist.toNat ≠ 65535) :
    frameOutcome f = .accept := by
  rw [frameOutcome_eq, if_neg (not_not_intro ((checksumValid_iff f).mp hvalid)), if_neg (Nat.not_lt.mpr hstr),
    if_neg (not_or_intro hsatA hsatB), if_neg hintf]

/-! ### What each row does -/

section Row
variable (s : State) (v : Byte)

theorem perform_byteCase (n : Fin 9) : s.perform (byteCase n v) = s.consumeByte v := by
  unfold byteCase
  split_ifs <;> rfl

theorem perform_outcomeInstr (f : Frame) (o : FrameOutcome) : s.perform (outcomeInstr f o) = s.consumeByte f.csum := by
  cases o <;> rfl

theorem perform_byteRow (n : Fin 9) (w : Window) : s.perform (byteRow n w v) = s.consumeByte v := by
  unfold byteRow
  split
  · exact perform_outcomeInstr s (frameOf w v) _
  · exact perform_byteCase s v n

/-- Two operations that leave the same state are the same step (R65: every operation has a next state). -/
theorem exec_eq_exec {i j : Instr} (h : s.perform i = s.perform j) : exec i s = exec j s := by
  rw [exec_eq_perform, exec_eq_perform, h]

end Row
end Sys2Proof.Machine
end

section
open Sys2Proof Sys2Proof.Machine Sys2Proof.Claims

/-- Settles O21: `fill` picks the case, the numbers of the window pick the frame row, and every row does what the
byte it carries does. -/
theorem byteIsItsDecodeMapRow : Obligations.ByteIsItsDecodeMapRow := by
  unfold Obligations.ByteIsItsDecodeMapRow
  intro s v
  refine ⟨frameOf s.win v, byteCase_hunt0, byteCase_hunt1, byteCase_collect, byteCase_ninth, byteRow_below s.win,
    toNat_distanceOf s.win, toNat_strengthOf s.win, toNat_rawTempOf s.win, rfl, fun h8 => ?_,
    exec_eq_exec s (perform_byteCase s v s.fill), exec_eq_exec s (perform_byteRow s v s.fill s.win)⟩
  rw [byteRow_ninth s.win h8, evaluate_eq]
  simp only [apply_ite (outcomeInstr (frameOf s.win v))]
  rfl

/-- Settles O22: a row outside its own state does what its byte does there, and in its own state its effect is
the byte's. -/
theorem rowsFollowTheirSymbol : Obligations.RowsFollowTheirSymbol := by
  unfold Obligations.RowsFollowTheirSymbol
  refine ⟨fun s v i h => exec_eq_exec s ?_, fun s f i h => exec_eq_exec s ?_⟩
  · rcases h with rfl | rfl | rfl | rfl <;> rfl
  · rcases h with rfl | rfl | rfl | rfl | rfl <;> rfl

end

section
/-!
SUPPORT. The words of a snapshot register as numbers.
-/
namespace Sys2Proof.Machine

theorem toNat_ofBool_eq_ite (b : Bool) : (BitVec.ofBool b).toNat = if b then 1 else 0 := by
  cases b <;> rfl

/-- Words 0 to 5 hold the fields, two of them in word 0 and `capturedAt` in words 2 and 3; the others read 0
(R63). -/
theorem toNat_snapWord (x : Record) (k : BitVec 4) : (snapWord x k).toNat =
    if k.toNat = 0 then x.dist.toNat + 65536 * x.str.toNat
    else if k.toNat = 1 then x.temp.toNat
    else if k.toNat = 2 then x.time.toNat % 2 ^ 32
    else if k.toNat = 3 then x.time.toNat / 2 ^ 32
    else if k.toNat = 4 then x.gen.toNat
    else if k.toNat = 5 then (if x.valid then 1 else 0)
    else 0 := by
  have htime := x.time.isLt
  unfold snapWord
  split
  case h_1 hk => rw [hk, if_pos rfl, toNat_append_mul]; omega
  case h_2 hk => rw [hk]; rfl
  case h_3 hk => rw [hk]; simp
  case h_4 hk =>
    rw [hk, BitVec.setWidth_eq, BitVec.extractLsb'_toNat, Nat.shiftRight_eq_div_pow]
    exact Nat.mod_eq_of_lt (by omega)
  case h_5 hk => rw [hk]; simp
  case h_6 hk => rw [hk, toNat_append_mul, toNat_ofBool_eq_ite]; simp
  case h_7 h0 h1 h2 h3 h4 h5 => rw [if_neg h0, if_neg h1, if_neg h2, if_neg h3, if_neg h4, if_neg h5]; rfl

/-- The vector is the fields side by side (R90). -/
theorem toNat_snapVec (s : State) (r : PortId) : (s.snapVec r).toNat =
    s.snap[r].dist.toNat + 2 ^ 16 * s.snap[r].str.toNat + 2 ^ 32 * s.snap[r].temp.toNat +
    2 ^ 64 * s.snap[r].time.toNat + 2 ^ 128 * s.snap[r].gen.toNat + 2 ^ 160 * (if s.snap[r].valid then 1 else 0) := by
  simp only [State.snapVec, toNat_append_mul, toNat_ofBool_eq_ite]
  omega

end Sys2Proof.Machine
end

section
open Sys2Proof Sys2Proof.Machine Sys2Proof.Claims

/-- Settles O35: words 0 to 5 are the fields in the order of the vector, `capturedAt` in two halves. -/
theorem snapshotVectorLayout : Obligations.SnapshotVectorLayout := by
  unfold Obligations.SnapshotVectorLayout
  intro s r
  have word0 : (s.regRead r 0#4).toNat = s.snap[r].dist.toNat + 65536 * s.snap[r].str.toNat :=
    toNat_snapWord s.snap[r] 0#4
  have word1 : (s.regRead r 1#4).toNat = s.snap[r].temp.toNat := toNat_snapWord s.snap[r] 1#4
  have word2 : (s.regRead r 2#4).toNat = s.snap[r].time.toNat % 2 ^ 32 := toNat_snapWord s.snap[r] 2#4
  have word3 : (s.regRead r 3#4).toNat = s.snap[r].time.toNat / 2 ^ 32 := toNat_snapWord s.snap[r] 3#4
  have word4 : (s.regRead r 4#4).toNat = s.snap[r].gen.toNat := toNat_snapWord s.snap[r] 4#4
  have word5 : (s.regRead r 5#4).toNat = if s.snap[r].valid then 1 else 0 := toNat_snapWord s.snap[r] 5#4
  refine ⟨toNat_snapVec s r, ?_⟩
  rw [toNat_snapVec, word0, word1, word2, word3, word4, word5]
  split <;> omega

/-- Settles O50: with nothing offered no slot is taken, and an idle slot asks for no operation. -/
theorem idleBlockWaits : Obligations.IdleBlockWaits := by
  unfold Obligations.IdleBlockWaits
  intro s
  refine ⟨fun hi hb => ?_, fun n rest hi => ?_⟩
  · rw [step, fetch_nil hi hb]
  · rw [step, fetch_cons hi]
    rfl

end
section
/-!
SUPPORT. A byte listing taken from `fill = 0`: the bytes of a header and its payload are held one after the
other, and a frame is evaluated in the step of its ninth byte.
-/
namespace Sys2Proof.Machine

open Sys2Proof.Claims

/-! ### Bytes that are held -/

/-- A byte that the framer holds (R110 to R112), one of the header in its place or any payload byte, is put in
the first free place of the window. -/
theorem consumeByte_held {s : State} {v : Byte} (hr : s.run = .run) (h7 : s.fill.val ≤ 7)
    (hv : s.fill.val < 2 → v = 0x59#8) : s.consumeByte v = s.collect v := by
  rcases consumeByte_cases s v with ⟨hr', -⟩ | ⟨-, hf, h⟩ | ⟨-, hf, h⟩ | ⟨-, hf, -⟩ | ⟨-, -, -, h⟩
  · exact absurd hr hr'
  · rw [h, hunt0_header (hv (by simp [hf]))]
    simp [State.collect, State.emit, hf]
  · rw [h, hunt1_header (hv (by simp [hf]))]
    simp [State.collect, State.emit, hf]
  · simp [hf] at h7
  · exact h

theorem takeSlot_byte (s : State) (t : Config.Timestamp) (v : Byte) :
    s.takeSlot ⟨t, .stream (byteSymbol v)⟩ = State.consumeByte { s with now := t } v :=
  takeSlot_of_decode s (i := .byte v) (congrArg some (decodeSymbol_byteSymbol v))

theorem take_succ_toList_set (w : Window) (i : Fin 9) (v : Byte) :
    (w.set i v).toList.take (i.val + 1) = w.toList.take i.val ++ [v] := by
  have hlen : i.val < (w.toList.set i.val v).length := by simp
  rw [Vector.toList_set, ← List.take_concat_get' _ _ hlen, List.getElem_set_self, List.take_set_of_le (Nat.le_refl _)]

/-- A listing of bytes that are all held fills the window from `fill` on and has the label `HOLD` for each byte;
it writes nothing else but the ghost `pos` and the time input. -/
theorem foldl_takeSlot_held (bs : List (BitVec 64 × Byte)) {s : State} {n : Fin 9} (hr : s.run = .run)
    (hn : n.val = s.fill.val + bs.length)
    (hhdr : ∀ (i : Nat) (b : Byte), (bs.map Prod.snd)[i]? = some b → s.fill.val + i < 2 → b = 0x59#8) :
    ∃ (w : Window) (t : Config.Timestamp),
      (byteSlots bs).foldl State.takeSlot s =
        { s with win := w, fill := n, pos := s.pos + bs.length, now := t,
                 out := List.replicate bs.length (.label .hold) ++ s.out } ∧
      w.toList = s.win.toList.take s.fill.val ++ bs.map Prod.snd ++ s.win.toList.drop n.val := by
  induction bs generalizing s with
  | nil =>
    obtain rfl : n = s.fill := Fin.ext hn
    exact ⟨s.win, s.now, rfl, by simp⟩
  | cons b bs ih =>
    obtain ⟨t, v⟩ := b
    rw [List.length_cons] at hn
    have h7 : s.fill.val ≤ 7 := by omega
    have hslot : s.takeSlot ⟨t, .stream (byteSymbol v)⟩ = State.collect { s with now := t } v :=
      (takeSlot_byte s t v).trans (consumeByte_held (s := { s with now := t }) hr h7 (hhdr 0 v rfl))
    have hfill : (State.collect { s with now := t } v).fill.val = s.fill.val + 1 := fill_succ h7
    have hdrop : (s.win.set s.fill v).toList.drop n.val = s.win.toList.drop n.val := by
      rw [Vector.toList_set, List.drop_set_of_lt (show s.fill.val < n.val by omega)]
    obtain ⟨w, t', hfold, hwin⟩ := ih (s := State.collect { s with now := t } v) hr (by rw [hfill]; omega)
      fun i b hb hi => hhdr (i + 1) b hb (by rw [hfill] at hi; omega)
    refine ⟨w, t', ?_, ?_⟩
    · show (byteSlots bs).foldl State.takeSlot (s.takeSlot _) = _
      rw [hslot, hfold]
      simp [State.collect, State.emit, List.replicate_succ', Nat.add_assoc, Nat.add_comm 1]
    · rw [hwin, hfill, State.collect_win, hdrop, take_succ_toList_set, List.append_assoc (List.take ..)]
      rfl

/-! ### The window of a frame -/

theorem frameOf_set8 (w : Window) (v b : Byte) : frameOf (w.set 8 b) v = frameOf w v := by
  simp [frameOf, distanceOf, strengthOf, rawTempOf]

/-- A window that agrees with `w` in the first eight bytes is `w` with another last byte. -/
theorem eq_set8_of_take {w w' : Window} {l : List Byte} (h : w'.toList = w.toList.take 8 ++ l) :
    ∃ b, w' = w.set 8 b := by
  have hlen := congrArg List.length h
  rw [List.length_append, List.length_take, Vector.length_toList, Vector.length_toList] at hlen
  obtain ⟨b, rfl⟩ := List.length_eq_one_iff.mp (show l.length = 1 by omega)
  refine ⟨b, Vector.toList_inj.mp ?_⟩
  rw [h, Vector.toList_set, List.set_eq_take_append_cons_drop, if_pos (by simp), List.drop_of_length_le (by simp)]

/-- The first eight bytes of a frame, each with the value of `now` in its step. -/
def firstEight (f : Frame) (ts : List (BitVec 64)) : List (BitVec 64 × Byte) := ts.zip ((frameWindow f).toList.take 8)

section FirstEight
variable (f : Frame) {ts : List (BitVec 64)} (hts : ts.length = 8)
include hts

theorem length_firstEight : (firstEight f ts).length = 8 := by
  simp [firstEight, hts]

theorem map_snd_firstEight : (firstEight f ts).map Prod.snd = (frameWindow f).toList.take 8 :=
  List.map_snd_zip (by simp [hts])

/-- A listing of the nine bytes of a frame is its first eight bytes and its checksum byte (R80). -/
theorem byteSlots_framexBytes (t : BitVec 64) :
    byteSlots ((ts ++ [t]).zip (framexBytes f.dist f.str f.raw f.csum)) =
      byteSlots (firstEight f ts) ++ [⟨t, .stream (byteSymbol f.csum)⟩] := by
  have hbytes : framexBytes f.dist f.str f.raw f.csum = (frameWindow f).toList.take 8 ++ [f.csum] := rfl
  rw [hbytes, List.zip_append (by simp [hts]), byteSlots, List.map_append]
  rfl

/-- The first eight bytes of a frame are all held, and the window then awaits its ninth (R110 to R112). -/
theorem foldl_takeSlot_firstEight {s : State} (hr : s.run = .run) (hf : s.fill = 0) :
    ∃ (b : Byte) (t : Config.Timestamp),
      (byteSlots (firstEight f ts)).foldl State.takeSlot s =
        { s with win := (frameWindow f).set 8 b, fill := 8, pos := s.pos + 8, now := t,
                 out := List.replicate 8 (.label .hold) ++ s.out } := by
  have hlen := length_firstEight f hts
  have hbytes := map_snd_firstEight f hts
  have hhdr : ∀ (i : Nat) (b : Byte), ((firstEight f ts).map Prod.snd)[i]? = some b → s.fill.val + i < 2 →
      b = 0x59#8 := by
    rw [hbytes, hf]
    intro i b hb hi
    match i, hi with
    | 0, _ => exact (Option.some.inj hb).symm
    | 1, _ => exact (Option.some.inj hb).symm
  obtain ⟨w, t, hfold, hwin⟩ := foldl_takeSlot_held (firstEight f ts) (n := 8) hr (by rw [hlen, hf]; rfl) hhdr
  rw [hf, hbytes] at hwin
  rw [hlen] at hfold
  obtain ⟨b, rfl⟩ := eq_set8_of_take hwin
  exact ⟨b, t, hfold⟩

end FirstEight

/-- The ninth byte of a frame whose first eight are held writes what the frame's outcome says (R113, R130). -/
theorem consumeByte_ninthOf {s : State} {f : Frame} {b : Byte} (hr : s.run = .run) (hf : s.fill = 8)
    (hwin : s.win = (frameWindow f).set 8 b) :
    s.consumeByte f.csum = (s.takeNinth f.csum).conclude f (frameOutcome f) := by
  rw [consumeByte_ninth hr hf, State.ninth, hwin, evaluate_set8, frameOf_set8, frameOf_frameWindow]
  rfl

end Sys2Proof.Machine
end

section
open Sys2Proof Sys2Proof.Machine Sys2Proof.Claims

/-- Settles O27: eight bytes are held, and the ninth publishes with the time of its own slot. -/
theorem wholeFramePublishes : Obligations.WholeFramePublishes := by
  unfold Obligations.WholeFramePublishes
  intro s f ts tn rest hr hf hvalid hstr hintf hsatA hsatB hts hinputs
  rw [byteSlots_framexBytes f hts] at hinputs
  have hlen (slot : Slot) : (byteSlots (firstEight f ts) ++ [slot]).length = 9 := by
    simp [byteSlots, length_firstEight f hts]
  obtain ⟨b, t, hheld⟩ := foldl_takeSlot_firstEight f hts hr hf
  have hrun := runSteps_listing s rest s.beyond
    (byteSlots (firstEight f ts) ++ [Slot.mk tn (.stream (byteSymbol f.csum))]) 0
  rw [← hinputs, withSource_self, hlen, List.foldl_append, hheld, List.foldl_cons, List.foldl_nil, takeSlot_byte,
    consumeByte_ninthOf (b := b), frameOutcome_accept hvalid hstr hintf hsatA hsatB] at hrun
  · exact ⟨_, hrun, rfl, rfl, hr, rfl, rfl, rfl, rfl, rfl, rfl, rfl, rfl⟩
  · exact hr
  · rfl
  · rfl

end

section
/-!
SUPPORT. The framer along a byte listing: what a byte does to `fill`, what a byte that is not the ninth leaves
alone, and the bytes hunted through before the first header.
-/
namespace Sys2Proof.Machine

open Sys2Proof.Claims

/-! ### One byte -/

section Byte
variable {s : State} {v : Byte}

/-- The transition table of R116. -/
theorem consumeByte_fill (hr : s.run = .run) :
    (s.consumeByte v).fill.val =
      if s.fill.val = 8 then 0
      else if s.fill.val ≤ 1 then (if v = 0x59#8 then s.fill.val + 1 else 0)
      else s.fill.val + 1 := by
  rcases consumeByte_cases s v with ⟨hr', -⟩ | ⟨-, hf, h⟩ | ⟨-, hf, h⟩ | ⟨-, hf, h⟩ | ⟨-, h2, h7, h⟩
  · exact absurd hr hr'
  · by_cases hv : v = 0x59#8
    · rw [h, hunt0_header hv]
      simp [hf, hv]
    · rw [h, hunt0_noise hv]
      simp [hf, hv]
  · by_cases hv : v = 0x59#8
    · rw [h, hunt1_header hv]
      simp [hf, hv]
    · rw [h, hunt1_false_start hv]
      simp [hf, hv]
  · simp [h, State.ninth, hf]
  · rw [h, if_neg (by omega), if_neg (by omega)]
    exact fill_succ h7

/-- A byte raises `fill` by one at most (R116, R152). -/
theorem consumeByte_fill_le : (s.consumeByte v).fill.val ≤ s.fill.val + 1 := by
  by_cases hr : s.run = .run
  · rw [consumeByte_fill hr]
    split_ifs <;> omega
  · rw [consumeByte_stopped hr]
    omega

/-- A byte that is not the ninth publishes nothing (R119). -/
theorem consumeByte_store_of_not_ninth (hf : s.fill ≠ 8) :
    (s.consumeByte v).store = s.store ∧ (s.consumeByte v).published = s.published := by
  by_cases hr : s.run = .run
  · rcases consumeByte_running s v hr with ⟨w, n, k, l, h⟩ | ⟨hf', -⟩
    · rw [h]
      exact ⟨rfl, rfl⟩
    · exact absurd hf' hf
  · rw [consumeByte_stopped hr]
    exact ⟨rfl, rfl⟩

/-- The state with another value of the time input. -/
def State.withNow (s : State) (n : Config.Timestamp) : State := { s with now := n }

theorem hunt0_withNow (n : Config.Timestamp) : (s.withNow n).hunt0 v = (s.hunt0 v).withNow n := by
  unfold State.hunt0
  split <;> rfl

theorem hunt1_withNow (n : Config.Timestamp) : (s.withNow n).hunt1 v = (s.hunt1 v).withNow n := by
  unfold State.hunt1
  split <;> rfl

/-- A byte that is not the ninth does not read the time input (R119). -/
theorem consumeByte_withNow (hf : s.fill ≠ 8) (n : Config.Timestamp) :
    (s.withNow n).consumeByte v = (s.consumeByte v).withNow n := by
  let u := s.withNow n
  rcases consumeByte_cases s v with ⟨hr, h⟩ | ⟨hr, h0, h⟩ | ⟨hr, h1, h⟩ | ⟨-, h8, -⟩ | ⟨hr, h2, h7, h⟩
  · rw [h]
    exact consumeByte_stopped (s := u) hr
  · rw [h]
    exact (consumeByte_hunt0 (s := u) hr h0).trans (hunt0_withNow n)
  · rw [h]
    exact (consumeByte_hunt1 (s := u) hr h1).trans (hunt1_withNow n)
  · exact absurd h8 hf
  · rw [h]
    exact consumeByte_collect (s := u) hr h2 h7

@[simp] theorem conclude_win (f : Frame) (o : FrameOutcome) : (s.conclude f o).win = s.win := by cases o <;> rfl

end Byte

/-! ### Byte listings -/

/-- A run through a byte listing deals with its slots and leaves the rest of the inputs to come. -/
theorem runSteps_byteSlots {s : State} {bs : List (BitVec 64 × Byte)} {rest : List Slot} {k : Nat}
    (hinputs : s.inputs = byteSlots bs ++ rest) (hk : bs.length = k) :
    runSteps k s = .next (((byteSlots bs).foldl State.takeSlot s).withSource rest s.beyond) := by
  have hrun := runSteps_listing s rest s.beyond (byteSlots bs) 0
  rwa [← hinputs, withSource_self, Nat.add_zero, byteSlots, List.length_map, hk] at hrun

theorem foldl_takeSlot_append (bs cs : List (BitVec 64 × Byte)) (s : State) :
    (byteSlots (bs ++ cs)).foldl State.takeSlot s =
      (byteSlots cs).foldl State.takeSlot ((byteSlots bs).foldl State.takeSlot s) := by
  rw [byteSlots, List.map_append, List.foldl_append]
  rfl

theorem foldl_takeSlot_cons (t : BitVec 64) (v : Byte) (bs : List (BitVec 64 × Byte)) (s : State) :
    (byteSlots ((t, v) :: bs)).foldl State.takeSlot s =
      (byteSlots bs).foldl State.takeSlot ((s.withNow t).consumeByte v) :=
  congrArg ((byteSlots bs).foldl State.takeSlot) (takeSlot_byte s t v)

/-- A listing too short to reach a ninth byte publishes nothing (R113, R119). -/
theorem foldl_takeSlot_store_of_short (bs : List (BitVec 64 × Byte)) {s : State}
    (hshort : s.fill.val + bs.length ≤ 8) :
    ((byteSlots bs).foldl State.takeSlot s).store = s.store ∧
      ((byteSlots bs).foldl State.takeSlot s).published = s.published := by
  induction bs generalizing s with
  | nil => exact ⟨rfl, rfl⟩
  | cons b bs ih =>
    obtain ⟨t, v⟩ := b
    rw [List.length_cons] at hshort
    have hf : s.fill ≠ 8 := fun h => by simp [h] at hshort
    obtain ⟨hstore, hpub⟩ := consumeByte_store_of_not_ninth (s := s.withNow t) (v := v) hf
    have hle : ((s.withNow t).consumeByte v).fill.val ≤ s.fill.val + 1 := consumeByte_fill_le
    obtain ⟨hstores, hpubs⟩ := ih (s := (s.withNow t).consumeByte v) (by omega)
    rw [foldl_takeSlot_cons]
    exact ⟨hstores.trans hstore, hpubs.trans hpub⟩

/-- After two bytes that are not the header one byte is held at most (R110, R111). -/
theorem foldl_takeSlot_fill_of_no_header {s : State} {t0 t1 : BitVec 64} {a b : Byte} (hr : s.run = .run)
    (hf : s.fill = 0) (hab : [a, b] ≠ [0x59#8, 0x59#8]) :
    ((byteSlots [(t0, a), (t1, b)]).foldl State.takeSlot s).fill.val ≤ 1 := by
  let u := (s.withNow t0).consumeByte a
  have hrun : u.run = .run := (consumeByte_frame _ a).1.trans hr
  have hfirst : u.fill.val = if a = 0x59#8 then 1 else 0 :=
    (consumeByte_fill (s := s.withNow t0) hr).trans (by simp [State.withNow, hf])
  have hsecond : ((u.withNow t1).consumeByte b).fill.val = _ := consumeByte_fill hrun
  rw [foldl_takeSlot_cons, foldl_takeSlot_cons]
  refine hsecond.trans_le ?_
  rw [show (u.withNow t1).fill.val = _ from hfirst]
  by_cases ha : a = 0x59#8
  · have hb : b ≠ 0x59#8 := by
      rintro rfl
      exact hab (by rw [ha])
    simp [ha, hb]
  · simp only [ha, if_false]
    split_ifs <;> omega

/-! ### The window a header opens -/

theorem eq_header_of_take_two {l : List Byte} (h : l.take 2 = [0x59#8, 0x59#8]) {i : Nat} {b : Byte}
    (hb : l[i]? = some b) (hi : i < 2) : b = 0x59#8 := by
  rw [← List.getElem?_take_of_lt hi, h] at hb
  simpa using List.mem_of_getElem? hb

/-- Nine bytes that open with the header are all consumed: eight are held, and the ninth is evaluated, whatever
the outcome (R114). -/
theorem foldl_takeSlot_window {s : State} {bs : List (BitVec 64 × Byte)} {t : BitVec 64} {v : Byte}
    (hr : s.run = .run) (hf : s.fill = 0) (hlen : bs.length = 8)
    (hhdr : (bs.map Prod.snd).take 2 = [0x59#8, 0x59#8]) :
    ∃ u : State, (byteSlots (bs ++ [(t, v)])).foldl State.takeSlot s = u.ninth v ∧ u.run = .run ∧
      (u.win.set 8 v).toList = bs.map Prod.snd ++ [v] ∧ u.nSkip = s.nSkip ∧ u.frames = s.frames ∧
      u.pos = s.pos + 8 := by
  obtain ⟨w, t', hheld, hwin⟩ := foldl_takeSlot_held bs (n := 8) hr (by rw [hf, hlen]; rfl)
    fun i b hb hi => eq_header_of_take_two hhdr hb (by omega)
  refine ⟨{ s with
    win := w, fill := 8, pos := s.pos + bs.length, now := t,
    out := List.replicate bs.length (.label .hold) ++ s.out }, ?_, hr, ?_, rfl, rfl, ?_⟩
  · rw [foldl_takeSlot_append, hheld, foldl_takeSlot_cons]
    exact consumeByte_ninth hr rfl
  · have htake := take_succ_toList_set w 8 v
    rw [List.take_of_length_le (by simp), hwin, hf] at htake
    exact htake.trans (by simp [hlen])
  · rw [hlen]

/-! ### The hunt for the first header -/

theorem noHeaderIn_tail {v : Byte} {l : List Byte} (h : NoHeaderIn (v :: l)) : NoHeaderIn l :=
  fun k => h (k + 1)

theorem noHeaderIn_second_ne {v : Byte} {l : List Byte} (h : NoHeaderIn (0x59#8 :: v :: l)) : v ≠ 0x59#8 :=
  fun hv => h 0 rfl (congrArg some hv)

/-- The state `u` is `s` with `n` more bytes consumed, all of them skipped: besides the counts only the window,
whose bytes are stale then (R22), the time input and the record of labels may differ. -/
def State.Skipped (s : State) (n : Nat) (u : State) : Prop :=
  ∃ (w : Window) (t : Config.Timestamp) (out : List Shown),
    u = { s with win := w, nSkip := s.nSkip + BitVec.ofNat 32 n, pos := s.pos + n, now := t, out := out }

theorem State.Skipped.trans {s u u' : State} {n m : Nat} (h : s.Skipped n u) (h' : u.Skipped m u') :
    s.Skipped (n + m) u' := by
  obtain ⟨w, t, out, rfl⟩ := h
  obtain ⟨w', t', out', rfl⟩ := h'
  exact ⟨w', t', out', by simp only [BitVec.ofNat_add, BitVec.add_assoc, Nat.add_assoc]⟩

theorem State.Skipped.frame {s u : State} {n : Nat} (h : s.Skipped n u) :
    u.run = s.run ∧ u.fill = s.fill ∧ u.nSkip = s.nSkip + BitVec.ofNat 32 n ∧ u.store = s.store := by
  obtain ⟨w, t, out, rfl⟩ := h
  exact ⟨rfl, rfl, rfl, rfl⟩

section Hunt
variable {s : State} {t t' : BitVec 64} {v : Byte} (hr : s.run = .run) (hf : s.fill = 0) (hv : v ≠ 0x59#8)
include hr hf hv

/-- Noise is skipped alone (R110). -/
theorem skipped_noise : s.Skipped 1 ((s.withNow t).consumeByte v) :=
  ⟨s.win, t, _, (consumeByte_hunt0 (s := s.withNow t) hr hf).trans (hunt0_noise hv)⟩

/-- A 0x59 without a second one is skipped together with the byte after it (R111). -/
theorem skipped_false_start : s.Skipped 2 ((((s.withNow t).consumeByte 0x59#8).withNow t').consumeByte v) := by
  have hfirst := (consumeByte_hunt0 (s := s.withNow t) (v := 0x59#8) hr hf).trans (hunt0_header rfl)
  let u := (s.withNow t).consumeByte 0x59#8
  have hrun : u.run = .run := (consumeByte_frame ..).1.trans hr
  have hsecond : (u.withNow t').consumeByte v = _ :=
    (consumeByte_hunt1 (s := u.withNow t') hrun (congrArg State.fill hfirst)).trans (hunt1_false_start hv)
  refine ⟨s.win.set 0 0x59#8, t', .label (.skip 2) :: .label .hold :: s.out, hsecond.trans ?_⟩
  simp [u, State.withNow, hfirst, hf]

end Hunt

/-- Bytes without a header in them, nor one at the join with the header that follows, are all skipped (R115). -/
theorem foldl_takeSlot_skipped : (pre : List (BitVec 64 × Byte)) → {s : State} → s.run = .run → s.fill = 0 →
    NoHeaderIn (pre.map Prod.snd ++ [0x59#8]) → s.Skipped pre.length ((byteSlots pre).foldl State.takeSlot s)
  | [], s, _, _, _ => ⟨s.win, s.now, s.out, by simp [byteSlots]⟩
  | (t, v) :: pre, s, hr, hf, hno => by
    by_cases hv : v = 0x59#8
    · subst hv
      match pre, hno with
      | [], hno => exact absurd rfl (noHeaderIn_second_ne hno)
      | (t', v') :: pre, hno =>
        have hskip := skipped_false_start (t := t) (t' := t') hr hf (noHeaderIn_second_ne hno)
        obtain ⟨hrun, hfill, -, -⟩ := hskip.frame
        have hskips := foldl_takeSlot_skipped pre (hrun.trans hr) (hfill.trans hf)
          (noHeaderIn_tail (noHeaderIn_tail hno))
        rw [foldl_takeSlot_cons, foldl_takeSlot_cons, List.length_cons, List.length_cons, Nat.add_assoc, Nat.add_comm]
        exact hskip.trans hskips
    · have hskip := skipped_noise (t := t) hr hf hv
      obtain ⟨hrun, hfill, -, -⟩ := hskip.frame
      have hskips := foldl_takeSlot_skipped pre (hrun.trans hr) (hfill.trans hf) (noHeaderIn_tail hno)
      rw [foldl_takeSlot_cons, List.length_cons, Nat.add_comm]
      exact hskip.trans hskips

end Sys2Proof.Machine
end

section
open Sys2Proof Sys2Proof.Machine Sys2Proof.Claims

/-- Settles O11: `fill` after a byte in `RUN` is what the table says. -/
theorem fillFollowsTransitionTable : Obligations.FillFollowsTransitionTable := by
  unfold Obligations.FillFollowsTransitionTable
  exact fun s v hr => ⟨s.consumeByte v, rfl, consumeByte_fill hr⟩

/-- Settles O12: eight bytes are held and the ninth completes the window, whatever its outcome writes. -/
theorem headerOpensNineByteWindow : Obligations.HeaderOpensNineByteWindow := by
  unfold Obligations.HeaderOpensNineByteWindow
  intro s bs rest hr hf hlen hhdr hinputs
  have hrun := runSteps_byteSlots hinputs hlen
  obtain rfl | ⟨bs, ⟨t, v⟩, rfl⟩ := List.eq_nil_or_concat bs
  · simp at hlen
  have hlen8 : bs.length = 8 := by simpa using hlen
  rw [List.concat_eq_append, List.map_append, List.take_append_of_le_length (by simp [hlen8])] at hhdr
  rw [List.concat_eq_append] at hrun ⊢
  obtain ⟨u, hu, hrunning, hwin, hskip, hframes, hpos⟩ := foldl_takeSlot_window (t := t) (v := v) hr hf hlen8 hhdr
  rw [hu] at hrun
  have hwindow : (u.ninth v).win.toList = (bs ++ [(t, v)]).map Prod.snd := by
    rw [State.ninth, conclude_win, List.map_append]
    exact hwin
  exact ⟨_, hrun, (conclude_run ..).trans hrunning, conclude_fill .., rfl, hwindow, (conclude_nSkip ..).trans hskip,
    (conclude_frames ..).trans (congrArg (· + 1) hframes), (conclude_pos ..).trans (congrArg (· + 1) hpos)⟩

/-- Settles O13: the bytes before the first pair are all skipped with nothing held, and both header bytes are then
held. -/
theorem earliestHeaderFound : Obligations.EarliestHeaderFound := by
  unfold Obligations.EarliestHeaderFound
  intro s pre t0 t1 rest hr hf hpre hinputs
  have hrun := runSteps_byteSlots hinputs List.length_append
  let u := (byteSlots pre).foldl State.takeSlot s
  obtain ⟨hrunning, hfill, hskip, hstore⟩ := (foldl_takeSlot_skipped pre hr hf hpre).frame
  have hempty : u.fill = 0 := hfill.trans hf
  obtain ⟨w, t, hheld, hwin⟩ := foldl_takeSlot_held [(t0, 0x59#8), (t1, 0x59#8)] (s := u) (n := 2)
    (hrunning.trans hr) (by rw [hempty]; rfl) fun i b hb hi => eq_header_of_take_two rfl hb (by omega)
  rw [foldl_takeSlot_append, hheld] at hrun
  rw [hempty] at hwin
  have hw0 : w[0] = 0x59#8 := by simp [← Vector.getElem_toList, hwin]
  have hw1 : w[1] = 0x59#8 := by simp [← Vector.getElem_toList, hwin]
  exact ⟨_, hrun, rfl, hw0, hw1, hskip, rfl, hstore⟩

/-- Settles O14: the first two bytes leave one byte held at most, and seven more are too few for a ninth. -/
theorem headerlessWindowLeavesStore : Obligations.HeaderlessWindowLeavesStore := by
  unfold Obligations.HeaderlessWindowLeavesStore
  intro s bs rest hr hf hlen hhdr hinputs
  have hrun := runSteps_byteSlots hinputs hlen
  match bs, hlen with
  | (t0, a) :: (t1, b) :: bs, hlen =>
    let u := (byteSlots [(t0, a), (t1, b)]).foldl State.takeSlot s
    have hfill : u.fill.val ≤ 1 := foldl_takeSlot_fill_of_no_header hr hf hhdr
    have hseven : bs.length = 7 := by simpa using hlen
    obtain ⟨hstore, hpub⟩ := foldl_takeSlot_store_of_short [(t0, a), (t1, b)] (s := s) (by simp [hf])
    obtain ⟨hstores, hpubs⟩ := foldl_takeSlot_store_of_short bs (s := u) (by omega)
    exact ⟨_, hrun, hstores.trans hstore, hpubs.trans hpub, rfl⟩

/-- Settles O15: a byte below the ninth has the same effect at every time and writes the framer's own state. -/
theorem onlyNinthByteTouchesStore : Obligations.OnlyNinthByteTouchesStore := by
  unfold Obligations.OnlyNinthByteTouchesStore
  intro s v n hf
  obtain ⟨hstore, hpub⟩ := consumeByte_store_of_not_ninth (v := v) hf
  obtain ⟨hrun, hsnap⟩ := consumeByte_frame s v
  exact ⟨s.consumeByte v, rfl, hstore, hpub, hrun, hsnap, congrArg _ (consumeByte_withNow hf n)⟩

/-- Settles O8: the row and the byte it carries are the same step, a header byte or noise. -/
theorem huntFirstByte : Obligations.HuntFirstByte := by
  unfold Obligations.HuntFirstByte
  intro s v i hr hf hi
  have hbyte : s.perform i = s.hunt0 v := by
    rcases hi with rfl | rfl <;> exact consumeByte_hunt0 hr hf
  rw [exec_eq_perform, hbyte]
  split
  · rw [hunt0_header ‹_›]
  · rw [hunt0_noise ‹_›]

/-- Settles O9: the row and the byte it carries are the same step, the second header byte or a false start. -/
theorem huntSecondByte : Obligations.HuntSecondByte := by
  unfold Obligations.HuntSecondByte
  intro s v i hr hf hi
  have hbyte : s.perform i = s.hunt1 v := by
    rcases hi with rfl | rfl <;> exact consumeByte_hunt1 hr hf
  rw [exec_eq_perform, hbyte]
  split
  · rw [hunt1_header ‹_›]
  · rw [hunt1_false_start ‹_›]

/-- Settles O10: below 8 one more in `fill` is one more as a number, and no test looks at the byte. -/
theorem collectPayloadByte : Obligations.CollectPayloadByte := by
  unfold Obligations.CollectPayloadByte
  intro s v i n hr h2 h7 hn hi
  have hbyte : s.perform i = s.collect v := by
    rcases hi with rfl | rfl <;> exact consumeByte_collect hr h2 h7
  obtain rfl : n = s.fill + 1 := Fin.ext (hn.trans (fill_succ h7).symm)
  rw [exec_eq_perform, hbyte]
  rfl

end

section
/-!
SUPPORT. The frame outcomes (R142 to R146) at the ninth byte of a pending frame, what the checksum test catches
(R148), and the value of the temperature pattern (R137).
-/
namespace Sys2Proof.Machine

open Sys2Proof.Claims

/-! ### The outcome of a frame, test by test -/

section FrameOutcome
variable {f : Frame}

/-- The first test of R130. -/
theorem frameOutcome_rejCsum (hvalid : ¬ ChecksumValid f) : frameOutcome f = .rejCsum := by
  rw [frameOutcome_eq, if_pos (mt (checksumValid_iff f).mpr hvalid)]

/-- The tests of R130 after the first. -/
theorem frameOutcome_valid (hvalid : ChecksumValid f) : frameOutcome f =
    if f.str.toNat < 10 then .rejWeak
    else if f.dist.toNat = 65534 ∨ f.dist.toNat = 65535 then .rejSat
    else if f.dist.toNat = 65532 then .rejIntf
    else .accept := by
  rw [frameOutcome_eq, if_neg (not_not_intro ((checksumValid_iff f).mp hvalid))]

theorem frameOutcome_rejWeak (hvalid : ChecksumValid f) (hstr : f.str.toNat < 10) : frameOutcome f = .rejWeak := by
  rw [frameOutcome_valid hvalid, if_pos hstr]

theorem frameOutcome_rejSat (hvalid : ChecksumValid f) (hstr : 10 ≤ f.str.toNat)
    (hsat : f.dist.toNat = 65534 ∨ f.dist.toNat = 65535) : frameOutcome f = .rejSat := by
  rw [frameOutcome_valid hvalid, if_neg (Nat.not_lt.mpr hstr), if_pos hsat]

theorem frameOutcome_rejIntf (hvalid : ChecksumValid f) (hstr : 10 ≤ f.str.toNat) (hintf : f.dist.toNat = 65532) :
    frameOutcome f = .rejIntf := by
  rw [frameOutcome_valid hvalid, if_neg (Nat.not_lt.mpr hstr), if_neg (by omega), if_pos hintf]

end FrameOutcome

/-! ### The ninth byte of a pending frame -/

section Pending
variable {s : State} {f : Frame}

/-- The bytes of R80 in the window are the fields of the frame (R82). -/
theorem awaitsNinthOf_of_pending (h : Pending s f) : s.awaitsNinthOf f = true := by
  obtain ⟨hr, hf, h0, h1, h2, h3, h4, h5, h6, h7⟩ := h
  have hdist : distanceOf s.win = f.dist := BitVec.eq_of_toNat_eq (by rw [toNat_distanceOf]; omega)
  have hstr : strengthOf s.win = f.str := BitVec.eq_of_toNat_eq (by rw [toNat_strengthOf]; omega)
  have hraw : rawTempOf s.win = f.raw := BitVec.eq_of_toNat_eq (by rw [toNat_rawTempOf]; omega)
  exact decide_eq_true ⟨hr, hf, h0, h1, by rw [frameOf, hdist, hstr, hraw]⟩

/-- The row of the frame's outcome, the ninth-byte row and the byte itself are one step, which writes what the
outcome says (R113, R142 to R146). -/
theorem exec_of_pending {i : Instr} {o : FrameOutcome} (hp : Pending s f) (ho : frameOutcome f = o)
    (hi : i = outcomeInstr f o ∨ i = .byteNinth f.csum ∨ i = .byte f.csum) :
    exec i s = .next ((s.takeNinth f.csum).conclude f o) := by
  have hbyte : s.perform i = s.consumeByte f.csum := by
    rcases hi with rfl | rfl | rfl
    · exact perform_outcomeInstr s f o
    · rfl
    · rfl
  rw [exec_eq_perform, hbyte, consumeByte_of_awaits ⟨awaitsNinthOf_of_pending hp, ho⟩]

end Pending

/-! ### What the checksum catches -/

/-- A ninth byte that is not the sum of the window is counted in `n_csum` and writes nothing else (R143). -/
theorem exec_byte_of_wrong_sum {s : State} {v : Byte} (hr : s.run = .run) (hf : s.fill = 8)
    (hsum : sumNat s.win % 256 ≠ v.toNat) :
    exec (.byte v) s = .next
      { ninthTaken s v with nCsum := s.nCsum + 1#32, out := .label .rejCsum :: s.out } := by
  have heval : evaluate s.win v = .rejCsum := by rw [evaluate_eq, if_pos hsum]
  rw [exec_eq_perform, State.perform, consumeByte_ninth hr hf, State.ninth, heval]
  rfl

/-- Another byte in one of the first eight places moves the sum by the difference of the two bytes. -/
theorem sumNat_set (w : Window) (k : Fin 9) (b : Byte) (hk : k.val < 8) :
    sumNat (w.set k b) + w[k].toNat = sumNat w + b.toNat := by
  obtain ⟨k, hlt⟩ := k
  change k < 8 at hk
  interval_cases k
  all_goals
    simp [sumNat]
    omega

/-! ### The temperature pattern -/

section Binary32
variable {sign : Bool} {e frac : Nat} (he : e < 256) (hfrac : frac < 2 ^ 23)
include he hfrac

/-- Sign, exponent and fraction side by side. -/
theorem toNat_packBinary32 : (packBinary32 sign e frac).toNat = sign.toNat * 2 ^ 31 + (e * 2 ^ 23 + frac) := by
  rw [packBinary32, toNat_append_mul, toNat_append_mul, BitVec.toNat_ofBool, BitVec.toNat_ofNat, BitVec.toNat_ofNat,
    Nat.mod_eq_of_lt he, Nat.mod_eq_of_lt hfrac]
  omega

theorem exponentField_packBinary32 : exponentField (packBinary32 sign e frac) = e := by
  rw [exponentField, toNat_packBinary32 he hfrac]
  omega

/-- A normal number: the exponent field is not zero (G1). -/
theorem binary32Value_packBinary32 (hnormal : 0 < e) : binary32Value (packBinary32 sign e frac) =
    (-1) ^ sign.toNat * (1 + (frac : ℚ) / 2 ^ 23) * 2 ^ ((e : Int) - 127) := by
  have hsign : sign.toNat ≤ 1 := Bool.toNat_le sign
  have hlow : (sign.toNat * 2 ^ 31 + (e * 2 ^ 23 + frac)) % 2 ^ 31 ≠ 0 := by omega
  have hhigh : (sign.toNat * 2 ^ 31 + (e * 2 ^ 23 + frac)) / 2 ^ 31 = sign.toNat := by omega
  have hmod : (sign.toNat * 2 ^ 31 + (e * 2 ^ 23 + frac)) % 2 ^ 23 = frac := by omega
  rw [binary32Value, exponentField_packBinary32 he hfrac, toNat_packBinary32 he hfrac, if_neg hlow, hhigh, hmod]

end Binary32

section Eighths
variable {sign : Bool} {m : Nat} (hm : m ≠ 0) (hlt : m < 2 ^ 16)
include hm hlt

/-- The highest set bit of a 16-bit number leaves a fraction of 23 bits. -/
theorem eighths_fields : m.log2 < 16 ∧ (m - 2 ^ m.log2) * 2 ^ (23 - m.log2) < 2 ^ 23 := by
  have hlog : m.log2 < 16 := (Nat.log2_lt hm).mpr hlt
  refine ⟨hlog, ?_⟩
  have hhigh : m < 2 ^ (m.log2 + 1) := Nat.lt_log2_self
  calc (m - 2 ^ m.log2) * 2 ^ (23 - m.log2)
      < 2 ^ m.log2 * 2 ^ (23 - m.log2) := Nat.mul_lt_mul_of_pos_right (by omega) (by positivity)
    _ = 2 ^ 23 := by rw [← pow_add, Nat.add_sub_cancel' (by omega)]

theorem exponentField_packEighths : exponentField (packEighths sign m) = 124 + m.log2 := by
  obtain ⟨hlog, hfrac⟩ := eighths_fields hm hlt
  rw [packEighths, exponentField_packBinary32 (by omega) hfrac]
  omega

/-- No bit of `m` is lost: the fraction is `m / 2^e - 1` exactly (R137). -/
theorem binary32Value_packEighths : binary32Value (packEighths sign m) = (-1) ^ sign.toNat * ((m : ℚ) / 8) := by
  obtain ⟨hlog, hfrac⟩ := eighths_fields hm hlt
  rw [packEighths, binary32Value_packBinary32 (by omega) hfrac (by omega), mul_assoc]
  congr 1
  have hpow : (2 : ℚ) ^ 23 = 2 ^ m.log2 * 2 ^ (23 - m.log2) := by rw [← pow_add, Nat.add_sub_cancel' (by omega)]
  have hexp : ((127 + m.log2 - 3 : Nat) : Int) - 127 = m.log2 - 3 := by omega
  rw [hexp, zpow_sub₀ two_ne_zero, zpow_natCast, Nat.cast_mul, Nat.cast_sub (Nat.log2_self_le hm), hpow]
  push_cast
  field_simp
  norm_num

end Eighths

/-- Sign and size give a number back, as the pattern's sign bit and the packed size do for the eighths (R137). -/
theorem sign_mul_natAbs (x : Int) : (-1 : ℚ) ^ (decide (x < 0)).toNat * (x.natAbs : ℚ) = x := by
  by_cases hx : x < 0
  · simp [hx, abs_of_neg, Nat.cast_natAbs]
  · simp [hx, abs_of_nonneg (not_lt.mp hx), Nat.cast_natAbs]

/-- The eighths lie in -2048..63487 (R137). -/
theorem natAbs_tempEighths_lt (raw : Half) : (tempEighths raw).natAbs < 2 ^ 16 := by
  have := raw.isLt
  simp only [tempEighths, Config.tempDiv, Config.tempOff]
  omega

theorem tempEighths_div_eight (raw : Half) : (tempEighths raw : ℚ) / 8 = (raw.toNat : ℚ) / 8 - 256 := by
  simp only [tempEighths, Config.tempDiv, Config.tempOff]
  push_cast
  ring

end Sys2Proof.Machine
end

section
open Sys2Proof Sys2Proof.Machine Sys2Proof.Claims

/-- Settles O16: a valid frame that passes the filter is concluded by publishing it. -/
theorem frameAccepted : Obligations.FrameAccepted := by
  unfold Obligations.FrameAccepted
  intro s f i hp hvalid hstr hintf hsatA hsatB hi
  exact exec_of_pending hp (frameOutcome_accept hvalid hstr hintf hsatA hsatB) hi

/-- Settles O17: the first test decides, whatever the fields are. -/
theorem frameChecksumRejected : Obligations.FrameChecksumRejected := by
  unfold Obligations.FrameChecksumRejected
  intro s f i hp hvalid hi
  exact exec_of_pending hp (frameOutcome_rejCsum hvalid) hi

/-- Settles O18: the strength is tested before the distance. -/
theorem frameWeakRejected : Obligations.FrameWeakRejected := by
  unfold Obligations.FrameWeakRejected
  intro s f i hp hvalid hstr hi
  exact exec_of_pending hp (frameOutcome_rejWeak hvalid hstr) hi

/-- Settles O19: the third test, for both saturated distances. -/
theorem frameSaturatedRejected : Obligations.FrameSaturatedRejected := by
  unfold Obligations.FrameSaturatedRejected
  intro s f i hp hvalid hstr hsat hi
  exact exec_of_pending hp (frameOutcome_rejSat hvalid hstr hsat) hi

/-- Settles O20: the last test. -/
theorem frameInterferenceRejected : Obligations.FrameInterferenceRejected := by
  unfold Obligations.FrameInterferenceRejected
  intro s f i hp hvalid hstr hintf hi
  exact exec_of_pending hp (frameOutcome_rejIntf hvalid hstr hintf) hi

/-- Settles O23: an accepted evaluation would have read another distance and a strength of 10 at least. -/
theorem sentinelOrWeakNeverAccepted : Obligations.SentinelOrWeakNeverAccepted := by
  unfold Obligations.SentinelOrWeakNeverAccepted
  intro s v hr hf hfield
  have hnot : evaluate s.win v ≠ .accept := by
    intro haccept
    obtain ⟨-, hstr, -, -, hsatB⟩ := evaluate_accept haccept
    rw [BitVec.toNat_ne, toNat_distanceOf] at hsatB
    rw [toNat_strengthOf] at hstr
    exact hfield.elim hsatB (Nat.not_lt.mpr hstr)
  obtain ⟨hstore, hpub⟩ := (ninth_store_cases s v).resolve_left fun ⟨haccept, _⟩ => hnot haccept
  have hninth : exec (.byte v) s = .next (s.ninth v) := congrArg _ (consumeByte_ninth hr hf)
  exact ⟨s.ninth v, hninth, hstore, hpub, (conclude_run ..).trans hr, conclude_fill ..⟩

/-- Settles O24: two bytes that differ are less than 256 apart, so the sum modulo 256 moves with any of them. -/
theorem oneCorruptByteIsCaught : Obligations.OneCorruptByteIsCaught := by
  unfold Obligations.OneCorruptByteIsCaught
  intro s v hr hf hsum
  refine ⟨fun k b _ hk hb => ?_, fun b hb => ?_⟩
  · have hmoved := sumNat_set s.win k b hk
    have hdiffer := BitVec.toNat_ne.mp hb
    have := b.isLt
    have := s.win[k].isLt
    exact exec_byte_of_wrong_sum (s := { s with win := s.win.set k b }) hr hf (by dsimp only; omega)
  · exact exec_byte_of_wrong_sum hr hf (hsum.trans_ne (BitVec.toNat_ne.mp hb.symm))

/-- Settles O25: zero has its own pattern, and any other number of eighths is packed as a normal number. -/
theorem temperatureIsExact : Obligations.TemperatureIsExact := by
  unfold Obligations.TemperatureIsExact
  intro raw
  rw [← tempEighths_div_eight, tempPattern]
  split
  case isTrue hzero => simp [hzero, binary32Value, exponentField]
  case isFalse hne =>
    have hm : (tempEighths raw).natAbs ≠ 0 := Int.natAbs_ne_zero.mpr hne
    have hlt := natAbs_tempEighths_lt raw
    have hlog := (eighths_fields hm hlt).1
    rw [binary32Value_packEighths hm hlt, exponentField_packEighths hm hlt, ← mul_div_assoc, sign_mul_natAbs]
    exact ⟨rfl, by omega, by omega⟩

end

section
/-!
SUPPORT. A stream operation once the decode loop has ended (R152).
-/
namespace Sys2Proof.Machine

open Sys2Proof.Claims

variable {s : State}

/-- Byte or terminal symbol, an event of the stream writes nothing once the loop has ended (R118, R152). -/
theorem perform_stopped {i : Instr} (hr : s.run ≠ .run) (hi : isStream i = true) : s.perform i = s := by
  cases i with
  | byte | byteHunt0 | byteHunt1 | byteCollect | byteNinth | accept | rejCsum | rejWeak | rejSat | rejIntf =>
    exact consumeByte_stopped hr
  | eos => exact terminate_stopped .streamClosed hr
  | fault => exact terminate_stopped .transportFault hr
  | capture | rdsnap | rdstat | reset => cases hi

theorem inReady_stopped (hr : s.run ≠ .run) : s.inReady = false := decide_eq_false hr

end Sys2Proof.Machine
end

section
open Sys2Proof Sys2Proof.Machine Sys2Proof.Claims

/-- Settles O30: the operation's own guard on `run` holds it, and `in_ready` is read off the same register. -/
theorem nothingConsumedAfterTermination : Obligations.NothingConsumedAfterTermination := by
  unfold Obligations.NothingConsumedAfterTermination
  intro s i hr hi
  exact ⟨(exec_eq_perform i s).trans (congrArg _ (perform_stopped hr hi)), inReady_stopped hr⟩

/-- Settles O28: in `RUN` the terminal symbol writes `run` and its label, whatever `fill` is. -/
theorem endOfStreamCloses : Obligations.EndOfStreamCloses := by
  unfold Obligations.EndOfStreamCloses
  intro s hr
  have hexec : exec .eos s = .next (s.terminate .streamClosed) := exec_eq_perform .eos s
  exact ⟨_, hexec.trans (congrArg _ (terminate_streamClosed hr)), rfl, rfl, rfl, rfl⟩

/-- Settles O29: as O28, with the other terminal state. -/
theorem transportFaultIsFatal : Obligations.TransportFaultIsFatal := by
  unfold Obligations.TransportFaultIsFatal
  intro s hr
  have hexec : exec .fault s = .next (s.terminate .transportFault) := exec_eq_perform .fault s
  exact ⟨_, hexec.trans (congrArg _ (terminate_transportFault hr)), rfl, rfl, rfl, rfl⟩

end

section
/-!
SUPPORT. The reader side: the live words as numbers, what a reader operation leaves unchanged, and that no
stream operation sees the snapshots.
-/
namespace Sys2Proof.Machine

open Sys2Proof.Claims

/-! ### The words read -/

section Words
variable (s : State) (r : PortId) {k : BitVec 4}

/-- `RDSNAP`'s words come from the port's snapshot (R63). -/
theorem regRead_snap (hk : k.toNat < 8) : s.regRead r k = snapWord s.snap[r] k := if_pos hk

/-- `RDSTAT`'s words are live and the same on every port (R62, R63). -/
theorem regRead_live (hk : 8 ≤ k.toNat) : s.regRead r k = s.liveWord k := if_neg (Nat.not_lt_of_le hk)

/-- The fields of `STATUS` at bits 0, 2 and 4 (R62). -/
theorem toNat_statusWord : s.statusWord.toNat =
    (runCode s.run).toNat + (if s.store.valid then 4 else 0) + 16 * s.fill.val := by
  have hfill : s.fill.val % 2 ^ 4 = s.fill.val := Nat.mod_eq_of_lt (by omega)
  simp only [State.statusWord, toNat_append_mul, toNat_ofBool_eq_ite, BitVec.toNat_ofNat, hfill]
  split <;> omega

/-- Word 8 is `STATUS`, word 9 the live `gen`, words 10 to 14 the counters; word 15 reads 0 (R63). -/
theorem toNat_liveWord : (s.liveWord k).toNat =
    if k.toNat = 8 then s.statusWord.toNat
    else if k.toNat = 9 then s.store.gen.toNat
    else if k.toNat = 10 then s.nSkip.toNat
    else if k.toNat = 11 then s.nCsum.toNat
    else if k.toNat = 12 then s.nWeak.toNat
    else if k.toNat = 13 then s.nSat.toNat
    else if k.toNat = 14 then s.nIntf.toNat
    else 0 := by
  unfold State.liveWord
  split
  case h_1 h => rw [h]; rfl
  case h_8 h8 h9 h10 h11 h12 h13 h14 =>
    rw [if_neg h8, if_neg h9, if_neg h10, if_neg h11, if_neg h12, if_neg h13, if_neg h14]; rfl
  case h_2 h | h_3 h | h_4 h | h_5 h | h_6 h | h_7 h => rw [h, BitVec.setWidth_eq]; rfl

end Words

/-! ### Reader operations -/

section Reader
variable (s : State)

/-- A reader operation writes nothing but the snapshots and the output (R61, R163). -/
theorem perform_reader {i : Instr} (hi : isReader i = true) :
    s.perform i = { s with snap := (s.perform i).snap, out := (s.perform i).out } := by
  cases i with
  | capture | rdsnap | rdstat => rfl
  | byte | byteHunt0 | byteHunt1 | byteCollect | byteNinth | eos | fault | accept | rejCsum | rejWeak | rejSat
  | rejIntf | reset => cases hi

/-- What `read()` gives after the capture is the store's record, if there is one (R164). -/
theorem readResult_captureInto (r : PortId) : (s.captureInto r).readResult r =
    if s.store.valid then some ⟨s.store.dist, s.store.str, s.store.temp, s.store.time, s.store.gen⟩ else none := by
  rw [State.readResult, captureInto_snap_self]

end Reader

/-! ### Stream operations do not see the snapshots -/

section Stream
variable (s : State) (m : Vector Record Config.nr)

theorem terminate_withSnap (c : Terminal) : (s.withSnap m).terminate c = (s.terminate c).withSnap m := by
  let u := s.withSnap m
  by_cases hr : s.run = .run
  · cases c with
    | streamClosed => rw [terminate_streamClosed hr]; exact terminate_streamClosed (s := u) hr
    | transportFault => rw [terminate_transportFault hr]; exact terminate_transportFault (s := u) hr
  · rw [terminate_stopped c hr]; exact terminate_stopped (s := u) c hr

/-- What the readers hold makes no difference to a stream operation, and none changes it (R163, R183). -/
theorem perform_withSnap {i : Instr} (hi : isStream i = true) :
    (s.withSnap m).perform i = (s.perform i).withSnap m := by
  cases i with
  | byte v | byteHunt0 v | byteHunt1 v | byteCollect v | byteNinth v => exact consumeByte_withSnap s m v
  | accept f | rejCsum f | rejWeak f | rejSat f | rejIntf f => exact consumeByte_withSnap s m f.csum
  | eos => exact terminate_withSnap s m .streamClosed
  | fault => exact terminate_withSnap s m .transportFault
  | capture | rdsnap | rdstat | reset => cases hi

end Stream
end Sys2Proof.Machine
end

section
open Sys2Proof Sys2Proof.Machine Sys2Proof.Claims

/-- Settles O33: the word index picks the snapshot's word, whose value is its field. -/
theorem snapshotWordsRead : Obligations.SnapshotWordsRead := by
  unfold Obligations.SnapshotWordsRead
  intro s r k hk
  refine ⟨s.regRead r k, exec_eq_perform (.rdsnap r k) s, ?_⟩
  rw [regRead_snap s r hk]
  exact toNat_snapWord s.snap[r] k

/-- Settles O34: the word index picks a live word; `STATUS` is the one with several fields. -/
theorem statusWordsRead : Obligations.StatusWordsRead := by
  unfold Obligations.StatusWordsRead
  intro s r k hk
  refine ⟨s.regRead r k, exec_eq_perform (.rdstat r k) s, ?_⟩
  rw [regRead_live s r hk, toNat_liveWord, toNat_statusWord]
  cases s.run <;> rfl

/-- Settles O38: each of the three reader operations has that frame, and only a capture writes a snapshot. -/
theorem readersCannotDisturb : Obligations.ReadersCannotDisturb := by
  unfold Obligations.ReadersCannotDisturb
  intro i s hi
  have hexec := exec_eq_perform i s
  refine ⟨s.perform i, hexec, perform_reader s hi, fun r hcapture => ?_⟩
  exact snapshotChangesOnlyOnCapture i s _ r hexec hcapture fun hreset => by rw [hreset] at hi; cases hi

/-- Settles O40: a stream operation commutes with replacing the snapshots, by others or by its own. -/
theorem streamSideIgnoresSnapshots : Obligations.StreamSideIgnoresSnapshots := by
  unfold Obligations.StreamSideIgnoresSnapshots
  intro i s m hi
  have hsnap : (s.perform i).snap = ((s.perform i).withSnap s.snap).snap :=
    congrArg State.snap (perform_withSnap s s.snap hi)
  have hother : exec i (s.withSnap m) = .next ((s.perform i).withSnap m) :=
    (exec_eq_perform i _).trans (congrArg _ (perform_withSnap s m hi))
  exact ⟨s.perform i, exec_eq_perform i s, hsnap, hother⟩

/-- Settles O32: the capture sets one element of the snapshots to the store. -/
theorem captureCopiesStore : Obligations.CaptureCopiesStore := by
  unfold Obligations.CaptureCopiesStore
  intro s r
  exact ⟨s.captureInto r, rfl, captureInto_snap_self s r, fun r' hne => captureInto_snap_ne s hne.symm, rfl⟩

/-- Settles O36: the register just captured holds the store, and `read()` asks for its `st_valid`. -/
theorem readReturnsStoredRecord : Obligations.ReadReturnsStoredRecord := by
  unfold Obligations.ReadReturnsStoredRecord
  intro s r
  refine ⟨s.captureInto r, rfl, fun hunset => ?_, fun hvalid => ?_⟩
  · rw [readResult_captureInto, hunset]; rfl
  · rw [readResult_captureInto, hvalid]; rfl

end

section
open Sys2Proof Sys2Proof.Machine Sys2Proof.Claims

/-- Settles O2: the ghosts are those of the reset state (R24, R210), and what the model adds to the block passes
through `RESET` (log entries 8, 20). -/
theorem resetKeepsTheEnvironment : Obligations.ResetKeepsTheEnvironment := by
  unfold Obligations.ResetKeepsTheEnvironment
  intro s
  exact ⟨s.resetBlock, exec_eq_perform .reset s, s.resetBlock_pos, s.resetBlock_frames, s.resetBlock_published,
    s.resetBlock_inputs, s.resetBlock_beyond, s.resetBlock_now, s.resetBlock_out⟩

end
